-- ==== Sys2Proof/Machine/Memory.lean ====
section
/-! DEFINITION. Sparse byte stores in one canonical form: cells by strictly rising address, and no cell that holds what
an unlisted address of that store holds. The three stores of CORE (`RAM`, `SRAM`, `EEP`, 10_state.md R25, R27) and the
cartridge image (R26) are held this way. -/

namespace Sys2Proof.Machine

/-- A byte store: the listed cells, by rising address. -/
abbrev Memory := List Host.Cell

/-- The byte listed at address `a`, if any. -/
def Memory.find : Memory → Nat → Option (BitVec 8)
  | [], _ => none
  | (k, v) :: m, a => if k = a then some v else Memory.find m a

/-- The byte at address `a` of a store whose unlisted addresses hold `fill`. -/
def Memory.read (fill : BitVec 8) (m : Memory) (a : Nat) : BitVec 8 :=
  (m.find a).getD fill

/-- List byte `b` at address `a`, in its place by address. -/
def Memory.insert : Memory → Nat → BitVec 8 → Memory
  | [], a, b => [(a, b)]
  | (k, v) :: m, a, b =>
    if a < k then (a, b) :: (k, v) :: m
    else if a = k then (a, b) :: m
    else (k, v) :: Memory.insert m a b

/-- Unlist address `a`. -/
def Memory.erase : Memory → Nat → Memory
  | [], _ => []
  | (k, v) :: m, a => if k = a then Memory.erase m a else (k, v) :: Memory.erase m a

/-- Store byte `b` at `a`, in a store whose unlisted addresses hold `skip` (`none`: they hold no stored byte at all).
Storing what an unlisted address holds unlists the address. -/
def Memory.put (skip : Option (BitVec 8)) (m : Memory) (a : Nat) (b : BitVec 8) : Memory :=
  if skip = some b then m.erase a else m.insert a b

/-- The canonical list of the array of `lim` bytes that any list of cells spells: at each address below `lim` the byte of
the first cell listed for it, and what an unlisted address holds elsewhere. -/
def Memory.canon (skip : Option (BitVec 8)) (lim : Nat) : Memory → Memory
  | [] => []
  | (k, v) :: m => if k < lim then (Memory.canon skip lim m).put skip k v else Memory.canon skip lim m

/-- Store `byte i` at each of the `n` addresses from `lo` up. -/
def Memory.putFrom (skip : Option (BitVec 8)) (byte : Nat → BitVec 8) (lo : Nat) : Nat → Memory → Memory
  | 0, m => m
  | n + 1, m => (Memory.putFrom skip byte lo n m).put skip (lo + n) (byte (lo + n))

/-- An array of `len` bytes, put into a store of `lim`: bytes past the store are left out, and where the array has no
byte for the store, `missing` gives it. -/
def Memory.fit (skip : Option (BitVec 8)) (lim len : Nat) (missing : Nat → BitVec 8) (m : Memory) : Memory :=
  Memory.putFrom skip missing len (lim - len) (m.canon skip lim)

/-- Every listed address is above `lo`, rising, and below `lim`, and no cell holds `skip`. -/
def Memory.wfFrom (skip : Option (BitVec 8)) (lim : Nat) : Nat → Memory → Bool
  | _, [] => true
  | lo, (k, v) :: m => decide (lo ≤ k) && decide (k < lim) && decide (skip ≠ some v) && Memory.wfFrom skip lim (k + 1) m

/-- The canonical form of a store of `lim` bytes whose unlisted addresses hold `skip`. -/
def Memory.wf (skip : Option (BitVec 8)) (lim : Nat) (m : Memory) : Bool :=
  Memory.wfFrom skip lim 0 m

end Sys2Proof.Machine
end

