-- ==== Sys2Proof/Word.lean ====
section
/-! DEFINITION. The widths the spec gives (00_scope.md R6, R8): a byte, a bus word, a primary bus address, an
operation word; and the two access sizes of a bus transaction (20_memory.md R77). -/

namespace Sys2Proof

/-- 8 bits: one lane of the bus (R13). -/
abbrev Byte := BitVec 8

/-- 16 bits: both lanes of the bus (DATA_BITS, R6). -/
abbrev Word := BitVec 16

/-- 24 bits: a primary bus address, or a cartridge address (ADDR_BITS, R6; R80). -/
abbrev Addr := BitVec 24

/-- 32 bits: the spelling of one operation (30_encoding.md R100). -/
abbrev OpWord := BitVec 32

/-- The two access widths of a bus transaction: `SZ = 0` byte, `SZ = 1` word (20_memory.md R77, 30_encoding.md R101). -/
inductive Size where
  | byte
  | word
  deriving DecidableEq, Repr

end Sys2Proof
end

