-- ==== Sys2Proof/Config.lean ====
section
/-! DEFINITION. The session configuration: what 00_scope.md R6 calls the arguments of the model and 10_state.md R24
says is fixed at session start, with the defaults R6 gives; the clock record; and the free values, constants without a
body of which nothing can be proved. -/

namespace Sys2Proof

/-- The tag of a bank: ROM region 0 to 4, I/O, video, RAM or unused (R16, 20_memory.md R81). -/
inductive BankTag where
  | rom (region : Fin 5)
  | io
  | video
  | ram
  | unused
  deriving DecidableEq, Repr

/-- The four mapper variants (10_state.md R28). -/
inductive MapperKind where
  | flat
  | banked
  | fixedConst
  | quirk
  deriving DecidableEq, Repr

/-- The open parameter of the vendor-quirk variant (41_cartridge_mapper.md R181): which four hooks the session was
given, by a number, and the device-specific small state they act on. -/
structure Quirk where
  hooks : Nat
  state : List Byte
  deriving DecidableEq, Repr

/-- Mapper state: the tagged variant. Only the quirk variant carries a payload of its own here; the page selectors
and the fixed constants have homes of their own in the state (10_state.md R28 to R31). -/
inductive Mapper where
  | flat
  | banked
  | fixedConst
  | quirk (q : Quirk)
  deriving DecidableEq, Repr

/-- `MapperKind` of a mapper state. -/
def Mapper.kind : Mapper → MapperKind
  | .flat => .flat
  | .banked => .banked
  | .fixedConst => .fixedConst
  | .quirk _ => .quirk

/-- The cartridge image `ROM[0..ROM_LEN-1]` (10_state.md R26): its length, and its bytes other than 0x00. -/
structure RomImage where
  len : Nat
  cells : Machine.Memory
  deriving DecidableEq, Repr

/-- One byte offset of the fixed-constant sub-window: its `FC_MASK` bit and its `FC_CONST` byte (10_state.md R30). -/
structure FcEntry where
  mask : Bool
  const : Byte
  deriving DecidableEq, Repr

/-- The parameters the address decode reads (30_encoding.md R104, 00_scope.md R6). -/
structure BusMap where
  bankTag : Vector BankTag 8
  secLimit : Nat
  auxBase : Nat
  auxLen : Nat
  ioregBase : Nat
  busreqOff : BitVec 21
  sresetOff : BitVec 21
  vmask : BitVec 21
  deriving DecidableEq, Repr

/-- The session configuration (00_scope.md R6, 10_state.md R24). Windows are cartridge addresses, ends included. -/
structure Session where
  map : BusMap
  version : Byte
  rom : RomImage
  fcBase : Nat
  fc : List FcEntry
  sramStart : Nat
  sramEnd : Nat
  eepStart : Nat
  eepEnd : Nat
  sramEn : Bool
  eepEn : Bool
  graceCycles : Nat
  convNum : Nat
  convDen : Nat
  /-- The upper seven bits of the status byte: `STATUS_HI` without its bit 0, which R6 fixes as clear. -/
  statusHi : BitVec 7
  deriving DecidableEq, Repr

/-- The number of bytes of `SRAM` (10_state.md R27). -/
def Session.sramLen (c : Session) : Nat := c.sramEnd + 1 - c.sramStart

/-- The number of bytes of `EEP` (10_state.md R27). -/
def Session.eepLen (c : Session) : Nat := c.eepEnd + 1 - c.eepStart

/-- The device-type variants (10_state.md R39). -/
inductive DevType where
  | none
  | pad3
  | pad6
  | pad2
  | mouse
  | tap
  deriving DecidableEq, Repr

/-- The clock record: the cycle source's answer at the moment of an operation (42_bus_arbiter.md R191). -/
structure Clk where
  priNow : Nat
  priTarget : Nat
  secTarget : Nat
  secOdo : Nat
  deriving DecidableEq, Repr

/-- What POWERON is given out of band (70_reset_and_hazards.md R360): the session's parameters, the mapper variant, the
quirk parameter if one is supplied, the device type of each virtual port, and the prior contents of save memory (an
unlisted byte is 0xFF, so nothing listed is a first session). -/
structure PowerConfig where
  session : Session
  kind : MapperKind
  quirk : Option Quirk
  types : Vector DevType 15
  sram : Machine.Memory
  eep : Machine.Memory
  deriving DecidableEq, Repr

/-- The default decode parameters (00_scope.md R6, 20_memory.md R81). -/
def BusMap.default : BusMap where
  bankTag := #v[.rom 0, .rom 1, .rom 2, .rom 3, .unused, .io, .video, .ram]
  secLimit := 0x010000
  auxBase := 0x013000
  auxLen := 0x100
  ioregBase := 0x010000
  busreqOff := 0x011100#21
  sresetOff := 0x011200#21
  vmask := 0x0700E0#21

/-- The default session (R6). Where R6 says 'per session' the value is the model's (DESIGN CHOICE, log entry 3): no
image, no masked constant, both save stores disabled, an EEPROM window of one byte. -/
def Session.default : Session where
  map := BusMap.default
  version := 0xA0#8
  rom := ⟨0, []⟩
  fcBase := 0x400000
  fc := List.replicate 8 ⟨false, 0#8⟩
  sramStart := 0x200000
  sramEnd := 0x20FFFF
  eepStart := 0
  eepEnd := 0
  sramEn := false
  eepEn := false
  graceCycles := 16
  convNum := 7
  convDen := 15
  statusHi := 0x40#7

/-- The device types at power-on by default: PAD3 on virtual ports 0 and 1, NONE elsewhere (10_state.md R51). -/
def defaultTypes : Vector DevType 15 :=
  Vector.ofFn fun v => if v.val < 2 then .pad3 else .none

/-- The default power-on operand: a first session, BANKED (DESIGN CHOICE, log entry 3: R6 gives no default variant). -/
def PowerConfig.default : PowerConfig where
  session := Session.default
  kind := .banked
  quirk := none
  types := defaultTypes
  sram := []
  eep := []

/-! The free values. Nothing in Lean knows a value of any of these, so a claim holds whatever they are. The first
argument of those named for a draw is the number of the draw, counted in the state. -/

/-- What RAM byte `i` holds after power-on number `draw` until it is written (U1; 10_state.md R51: unspecified). -/
opaque Config.ramPowerOn (draw : Nat) (i : Nat) : Byte

/-- The secondary CPU's address space answers a `SecRead` (00_scope.md R14, U2). -/
opaque Config.secRead (draw : Nat) (a16 : BitVec 16) : Byte

/-- The video facade answers a byte `VidRead` (R14, U2). -/
opaque Config.vidReadByte (draw : Nat) (addr : Addr) : Byte

/-- The video facade answers a word `VidRead` (R14, U2). -/
opaque Config.vidReadWord (draw : Nat) (addr : Addr) : Word

/-- How much the cycle conversion grows from `n` to `n + 1` primary cycles in a session with `CONV_DEN = 0`, where no rule
states its result (42_bus_arbiter.md R192, 00_scope.md R9; DESIGN CHOICE, log entry 23). -/
opaque Config.convStep (num n : Nat) : Nat

/-- What `SRAM` byte `i` holds after a SETSTATE whose `SRAM` array is too short to have a byte `i` (45_host_ops.md R321
states none; DESIGN CHOICE, log entry 24). -/
opaque Config.restoredSram (draw : Nat) (i : Nat) : Byte

/-- The same for `EEP`. -/
opaque Config.restoredEep (draw : Nat) (i : Nat) : Byte

/-- `QuirkRead` of the hooks numbered `hooks` (41_cartridge_mapper.md R181, U3). -/
opaque Config.quirkRead (hooks : Nat) (st : List Byte) (c : Addr) : Byte

/-- `QuirkWrite` of the hooks numbered `hooks` (R181). -/
opaque Config.quirkWrite (hooks : Nat) (st : List Byte) (c : Addr) (v : Byte) : List Byte

/-- `QuirkAuxRead` of the hooks numbered `hooks` (R181). -/
opaque Config.quirkAuxRead (hooks : Nat) (st : List Byte) (i : Byte) : Byte

/-- `QuirkAuxWrite` of the hooks numbered `hooks` (R181). -/
opaque Config.quirkAuxWrite (hooks : Nat) (st : List Byte) (i : Byte) (v : Byte) : List Byte

end Sys2Proof
end

