-- ==== Sys2Proof/Machine/Records.lean ====
section
/-! DEFINITION. The records CORE's state is made of, with their power-on values: the arbiter lines, a port, a
controller device, the savestate value, and what an operation hands out (its result and its output events). -/

namespace Sys2Proof.Machine

/-- The bus arbiter's state (10_state.md R32 to R34). -/
structure Arbiter where
  /-- `BA.req`: the primary CPU holds the secondary's bus (R32). -/
  req : Bool
  /-- `BA.rst`: the secondary CPU is held in reset (R33). -/
  rst : Bool
  /-- `BA.lastReqCycle`: the primary cycle counter at the last stop edge (R34). -/
  lastReqCycle : Nat
  /-- `BA.lastReqPrior`: whether the secondary was actually running just before it (R34). -/
  lastReqPrior : Bool
  deriving DecidableEq, Repr

/-- A physical controller port (10_state.md R36). -/
structure Port where
  /-- `CTRL[p]`: bit 1 makes the data bit an output of the console. -/
  ctrl : Byte
  /-- `DOUT[p]`: the last value the CPU wrote to the data register. -/
  dout : Byte
  deriving DecidableEq, Repr

/-- The device record `D[v]` of a virtual port (10_state.md R37 to R44). -/
structure Device where
  /-- R39. -/
  type : DevType
  /-- R40: active low for pads, active high for the mouse. -/
  buttons : BitVec 12
  /-- R41: the handshake phase, or a tap's selected member. -/
  counter : BitVec 4
  /-- R42: scanline ticks since the last TH edge of a 6-button pad. -/
  scanlines : BitVec 5
  /-- R43: the line levels the device last received. -/
  lastLines : Byte
  /-- R44: signed accumulator of relative motion. -/
  relX : BitVec 16
  /-- R44. -/
  relY : BitVec 16
  /-- R44: the sampled motion. -/
  latX : Byte
  /-- R44. -/
  latY : Byte
  /-- R44: Y overflow, X overflow, Y sign, X sign. -/
  latFlags : BitVec 4
  /-- R37: the serial control byte. -/
  serCtrl : Byte
  /-- R37: the last transmitted byte. -/
  serLastTx : Byte
  deriving DecidableEq, Repr

/-- A key map row: one host key code per button index, 0 unassigned (10_state.md R45). -/
abbrev KeyRow := Vector (BitVec 16) 12

/-- No key assigned. -/
def KeyRow.empty : KeyRow := Vector.replicate 12 0#16

/-- The button count of a device type (10_state.md R39). -/
def nbtn : DevType → Nat
  | .none => 0
  | .pad3 => 8
  | .pad6 => 12
  | .pad2 => 6
  | .mouse => 4
  | .tap => 0

/-- Every button unpressed: all ones, but for the mouse, whose buttons are active high (10_state.md R40, R51). -/
def unpressed : DevType → BitVec 12
  | .mouse => 0x000#12
  | .none | .pad3 | .pad6 | .pad2 | .tap => 0xFFF#12

/-- A device record after power-on (10_state.md R51). -/
def Device.powerOn (t : DevType) : Device where
  type := t
  buttons := unpressed t
  counter := 0
  scanlines := 0
  lastLines := 0xFF#8
  relX := 0
  relY := 0
  latX := 0
  latY := 0
  latFlags := 0
  serCtrl := 0x00#8
  serLastTx := 0xFF#8

/-- A port after power-on: all inputs, `DOUT` all ones (10_state.md R51). -/
def Port.powerOn : Port := ⟨0x00#8, 0xFF#8⟩

/-- The arbiter after power-on: the secondary runs and is not in reset (10_state.md R51). -/
def Arbiter.powerOn : Arbiter := ⟨false, false, 0, false⟩

/-- The page selectors after power-on: identity (10_state.md R51). -/
def pageMapPowerOn : Vector (BitVec 6) 8 := Vector.ofFn fun w => BitVec.ofNat 6 w.val

/-- The value the savestate accessors exchange: every item of 10_state.md R52. `SRAM` and `EEP` are arrays of `sramLen`
and `eepLen` bytes (R27), of which the bytes other than 0xFF are listed. `ramDraw` is the model's own: which power-on draw
the unlisted RAM bytes stand for. -/
structure Saved where
  bankTag : Vector BankTag 8
  mapper : Mapper
  pageMap : Vector (BitVec 6) 8
  fcBase : Nat
  fc : List FcEntry
  sramEn : Bool
  eepEn : Bool
  arb : Arbiter
  ports : Vector Port 3
  devices : Vector Device 15
  keyMap : Vector KeyRow 15
  ram : Memory
  ramDraw : Nat
  sramLen : Nat
  sram : Memory
  eepLen : Nat
  eep : Memory
  deriving DecidableEq, Repr

/-- The savestate value of the default session right after power-on. -/
def Saved.default : Saved where
  bankTag := BusMap.default.bankTag
  mapper := .banked
  pageMap := pageMapPowerOn
  fcBase := Session.default.fcBase
  fc := Session.default.fc
  sramEn := Session.default.sramEn
  eepEn := Session.default.eepEn
  arb := Arbiter.powerOn
  ports := Vector.replicate 3 Port.powerOn
  devices := Vector.ofFn fun v => Device.powerOn defaultTypes[v]
  keyMap := Vector.replicate 15 KeyRow.empty
  ram := []
  ramDraw := 0
  sramLen := Session.default.sramLen
  sram := []
  eepLen := Session.default.eepLen
  eep := []

/-- What an operation returns to the agent that issued it (30_encoding.md R101, R102; 00_scope.md R12). -/
inductive Result where
  /-- A write, or a call with no result. -/
  | none
  /-- A byte read. -/
  | byte (v : Byte)
  /-- A word read. -/
  | word (v : Word)
  /-- `return OK`: 0. -/
  | ok
  /-- SCANLINE's: the call returns 0 (44_io_devices.md R290: 'return OK'; 00_scope.md R12) and hands out no result
  (30_encoding.md R102 lists 'none'). DEDUCED, log entry 11. -/
  | done
  /-- `return REJECT`: -1. -/
  | reject
  /-- What GETSTATE returns. -/
  | saved (sv : Saved)
  deriving DecidableEq, Repr

/-- The status an environment call returns: 0 for OK, -1 for REJECT (00_scope.md R12). -/
def Result.status : Result → Option Int
  | .ok | .done => some 0
  | .reject => some (-1)
  | .none | .byte _ | .word _ | .saved _ => Option.none

/-- The output events: the calls to an external collaborator that return nothing (00_scope.md R14). -/
inductive Event where
  /-- The secondary CPU executes exactly `n` cycles (42_bus_arbiter.md R195). -/
  | secAdvance (n : Nat)
  /-- The secondary's odometer is set (R196). -/
  | secSetOdo (v : Nat)
  /-- The secondary's pending run state is forced off (R198). -/
  | secHalt
  /-- The sound companion's reset entry point (R198). -/
  | soundReset
  /-- A byte written into the secondary's address space (40_router.md R140, R141). -/
  | secWrite (a16 : BitVec 16) (v : Byte)
  /-- A byte forwarded to the video facade (R147). -/
  | vidWriteByte (addr : Addr) (v : Byte)
  /-- A word forwarded to the video facade (R147). -/
  | vidWriteWord (addr : Addr) (v : Word)
  deriving DecidableEq, Repr

end Sys2Proof.Machine
end

