-- ==== Sys2Proof/Machine/Operands.lean ====
section
/-! DEFINITION. Operand assembly (30_encoding.md R103) and the two lanes of the bus (20_memory.md R70, R71, R75, R76):
every byte order and every lane choice of the model is made here. -/

namespace Sys2Proof.Machine

/-- The address of an access: a word access clears bit 0 (20_memory.md R75). -/
def align (sz : Size) (addr : Addr) : Addr :=
  match sz with
  | .byte => addr
  | .word => addr &&& 0xFFFFFE#24

/-- `bank = ADDR[23:21]`. -/
def bankOf (a : Addr) : Fin 8 := (a.extractLsb' 21 3).toFin

/-- `offset = ADDR[20:0]`. -/
def offsetOf (a : Addr) : BitVec 21 := a.extractLsb' 0 21

/-- RAM index: `A[15:0]` (R134: address bits 20:16 are ignored). -/
def ramIndex (a : Addr) : Nat := (a.extractLsb' 0 16).toNat

/-- Cartridge address: `region * 0x200000 + offset` (40_router.md R136). -/
def cartAddr (region : Fin 5) (a : Addr) : Addr :=
  BitVec.ofNat 24 (region.val * 0x200000 + (offsetOf a).toNat)

/-- Secondary address: `offset[15:0]`. -/
def secAddr (a : Addr) : BitVec 16 := a.extractLsb' 0 16

/-- Auxiliary index: `offset[7:0]`. -/
def auxIndex (a : Addr) : Byte := a.extractLsb' 0 8

/-- I/O register index: `offset[4:1]`. -/
def ioIndex (a : Addr) : BitVec 4 := a.extractLsb' 1 4

/-- The LO lane: an odd byte address (R71). -/
def onLoLane (a : Addr) : Bool := a.getLsbD 0

/-- The high byte of a word, the HI lane. -/
def hiByte (w : Word) : Byte := w.extractLsb' 8 8

/-- The low byte of a word, the LO lane. -/
def loByte (w : Word) : Byte := w.extractLsb' 0 8

/-- A read by lanes: a byte from its own lane, a word from the even address (HI) and the next (LO) (R76). -/
def readLanes (sz : Size) (addr : Addr) (lane : Addr → Byte) : Result :=
  match sz with
  | .byte => .byte (lane addr)
  | .word => .word (lane (align .word addr) ++ lane (align .word addr + 1#24))

/-- A write by lanes, HI before LO: a byte takes `DATA[7:0]`, a word `DATA[15:8]` at the even address and `DATA[7:0]`
at the next (R76, R103). -/
def writeLanes {σ : Type} (sz : Size) (addr : Addr) (data : Word) (lane : Addr → Byte → σ → σ) (s : σ) : σ :=
  match sz with
  | .byte => lane addr (loByte data) s
  | .word => lane (align .word addr + 1#24) (loByte data) (lane (align .word addr) (hiByte data) s)

/-- All ones at the access width: what an unused or invalid address reads as (40_router.md R132, R144, R148). -/
def sentinel : Size → Result
  | .byte => .byte 0xFF#8
  | .word => .word 0xFFFF#16

/-- The read lane of an 8-bit register on the LO lane: the other lane of its location reads 0xFF (30_encoding.md R109). -/
def loRegister (r : Byte) (a : Addr) : Byte := if onLoLane a then r else 0xFF#8

/-- The read lane of an 8-bit register on the HI lane (R109). -/
def hiRegister (r : Byte) (a : Addr) : Byte := if onLoLane a then 0xFF#8 else r

/-- The write lane of a register on the LO lane: a byte on the other lane is discarded (R109). -/
def toLoRegister {σ : Type} (w : Byte → σ → σ) (a : Addr) (v : Byte) (s : σ) : σ := if onLoLane a then w v s else s

/-- The write lane of a register on the HI lane (R109). -/
def toHiRegister {σ : Type} (w : Byte → σ → σ) (a : Addr) (v : Byte) (s : σ) : σ := if onLoLane a then s else w v s

/-- `x -. y`: truncated subtraction (00_scope.md R9). -/
def truncSub (x y : Nat) : Nat := x - y

/-- `sat16`: clamp an integer to -32768 .. 32767 (R9). -/
def sat16 (x : Int) : Int := max (-32768) (min 32767 x)

/-- The virtual port a 4-bit operand names, if there is one: 0 to 14 (45_host_ops.md R311). -/
def virtualPort (v : BitVec 4) : Option (Fin 15) :=
  if h : v.toNat < 15 then some ⟨v.toNat, h⟩ else none

/-- The device type a code names (10_state.md R39). -/
def typeOfCode (t : Byte) : Option DevType :=
  match t.toNat with
  | 0 => some .none
  | 1 => some .pad3
  | 2 => some .pad6
  | 3 => some .pad2
  | 4 => some .mouse
  | 5 => some .tap
  | _ => none

/-- The virtual port of the device directly on physical port `p` (10_state.md R47). -/
def direct (p : Fin 3) : Fin 15 := ⟨p.val, by omega⟩

/-- The virtual port of member `m` of a tap on physical port `p`: `3 + 4p + m`, `m` in 0..3 (10_state.md R47). A tap's
counter is in 0..3 in every reachable state (R50 I4); its two low bits name the member. -/
def member (p : Fin 3) (m : BitVec 4) : Fin 15 := ⟨3 + 4 * p.val + m.toNat % 4, by omega⟩

end Sys2Proof.Machine
end

