-- ==== Sys2Proof/Syntax.lean ====
section
/-! DEFINITION. The operations: one constructor per row of spec/opcode_table.json (30_encoding.md R105), and the form in
which an agent issues one, an operation word with its out-of-band operands (R100 to R102). -/

namespace Sys2Proof

open Machine (Saved)

/-- The out-of-band operands of a request. Every request carries the whole record; an operation reads the operands
R101 and R102 give it and no other. -/
structure Operands where
  /-- `DATA`, for a bus write (R101). -/
  data : Word
  /-- `Clk`, for a bus transaction (R101, 42_bus_arbiter.md R191). -/
  clk : Clk
  /-- `keys`, for SETKEYMAP (45_host_ops.md R312). -/
  keys : List (BitVec 16)
  /-- `dx`, for MOUSEMOVE (R316). -/
  dx : BitVec 16
  /-- `dy`, for MOUSEMOVE. -/
  dy : BitVec 16
  /-- The state value, for SETSTATE (R321). -/
  saved : Saved
  /-- The session configuration, for POWERON (70_reset_and_hazards.md R360). -/
  power : PowerConfig
  deriving DecidableEq, Repr

/-- Operands of zeros. A session and a state value have no zero, so the defaults stand there (log entry 5). -/
def Operands.zero : Operands where
  data := 0
  clk := ⟨0, 0, 0, 0⟩
  keys := []
  dx := 0
  dy := 0
  saved := Saved.default
  power := PowerConfig.default

/-- One operation as an agent issues it. -/
structure Request where
  opw : OpWord
  ops : Operands
  deriving DecidableEq, Repr

/-- The operations. `addr` is the address as issued: a word operation ignores its bit 0 (20_memory.md R75). A ROM
operation also carries the region digit of its bank's tag (40_router.md R136). -/
inductive Instr where
  /-- PSEL.WR (R176). -/
  | pselWr (sz : Size) (addr : Addr) (data : Word)
  /-- AUX.RD (R142). -/
  | auxRd (sz : Size) (addr : Addr)
  /-- AUX.WR (R143). -/
  | auxWr (sz : Size) (addr : Addr) (data : Word)
  /-- SEC.RDB (R138). -/
  | secRdb (addr : Addr)
  /-- SEC.RDW (R139). -/
  | secRdw (addr : Addr)
  /-- SEC.WRB (R140). -/
  | secWrb (addr : Addr) (data : Word)
  /-- SEC.WRW (R141). -/
  | secWrw (addr : Addr) (data : Word)
  /-- VERSION.RD (R231). -/
  | versionRd (sz : Size) (addr : Addr)
  /-- VERSION.WR (R232). -/
  | versionWr (sz : Size) (addr : Addr) (data : Word)
  /-- DATA1.RD (R233). -/
  | data1Rd (sz : Size) (addr : Addr)
  /-- DATA1.WR (R234). -/
  | data1Wr (sz : Size) (addr : Addr) (data : Word)
  /-- DATA2.RD (R235). -/
  | data2Rd (sz : Size) (addr : Addr)
  /-- DATA2.WR (R236). -/
  | data2Wr (sz : Size) (addr : Addr) (data : Word)
  /-- DATA3.RD (R237). -/
  | data3Rd (sz : Size) (addr : Addr)
  /-- DATA3.WR (R238). -/
  | data3Wr (sz : Size) (addr : Addr) (data : Word)
  /-- CTRL1.RD (R239). -/
  | ctrl1Rd (sz : Size) (addr : Addr)
  /-- CTRL1.WR (R240). -/
  | ctrl1Wr (sz : Size) (addr : Addr) (data : Word)
  /-- CTRL2.RD (R241). -/
  | ctrl2Rd (sz : Size) (addr : Addr)
  /-- CTRL2.WR (R242). -/
  | ctrl2Wr (sz : Size) (addr : Addr) (data : Word)
  /-- CTRL3.RD (R243). -/
  | ctrl3Rd (sz : Size) (addr : Addr)
  /-- CTRL3.WR (R244). -/
  | ctrl3Wr (sz : Size) (addr : Addr) (data : Word)
  /-- TXDATA1.RD (R245). -/
  | txdata1Rd (sz : Size) (addr : Addr)
  /-- TXDATA1.WR (R246). -/
  | txdata1Wr (sz : Size) (addr : Addr) (data : Word)
  /-- RXDATA1.RD (R247). -/
  | rxdata1Rd (sz : Size) (addr : Addr)
  /-- RXDATA1.WR (R248). -/
  | rxdata1Wr (sz : Size) (addr : Addr) (data : Word)
  /-- SCTRL1.RD (R249). -/
  | sctrl1Rd (sz : Size) (addr : Addr)
  /-- SCTRL1.WR (R250). -/
  | sctrl1Wr (sz : Size) (addr : Addr) (data : Word)
  /-- TXDATA2.RD (R251). -/
  | txdata2Rd (sz : Size) (addr : Addr)
  /-- TXDATA2.WR (R252). -/
  | txdata2Wr (sz : Size) (addr : Addr) (data : Word)
  /-- RXDATA2.RD (R253). -/
  | rxdata2Rd (sz : Size) (addr : Addr)
  /-- RXDATA2.WR (R254). -/
  | rxdata2Wr (sz : Size) (addr : Addr) (data : Word)
  /-- SCTRL2.RD (R255). -/
  | sctrl2Rd (sz : Size) (addr : Addr)
  /-- SCTRL2.WR (R256). -/
  | sctrl2Wr (sz : Size) (addr : Addr) (data : Word)
  /-- TXDATA3.RD (R257). -/
  | txdata3Rd (sz : Size) (addr : Addr)
  /-- TXDATA3.WR (R258). -/
  | txdata3Wr (sz : Size) (addr : Addr) (data : Word)
  /-- RXDATA3.RD (R259). -/
  | rxdata3Rd (sz : Size) (addr : Addr)
  /-- RXDATA3.WR (R260). -/
  | rxdata3Wr (sz : Size) (addr : Addr) (data : Word)
  /-- SCTRL3.RD (R261). -/
  | sctrl3Rd (sz : Size) (addr : Addr)
  /-- SCTRL3.WR (R262). -/
  | sctrl3Wr (sz : Size) (addr : Addr) (data : Word)
  /-- BUSREQ.RD (R203). -/
  | busreqRd (sz : Size) (addr : Addr) (clk : Clk)
  /-- BUSREQ.WR (R204). -/
  | busreqWr (sz : Size) (addr : Addr) (data : Word) (clk : Clk)
  /-- SRESET.RD (R205). -/
  | sresetRd (sz : Size) (addr : Addr)
  /-- SRESET.WR (R206). -/
  | sresetWr (sz : Size) (addr : Addr) (data : Word)
  /-- IOINV.RD (R144). -/
  | ioinvRd (sz : Size) (addr : Addr)
  /-- IOINV.WR (R145). -/
  | ioinvWr (sz : Size) (addr : Addr) (data : Word)
  /-- VID.RD (R146). -/
  | vidRd (sz : Size) (addr : Addr)
  /-- VID.WR (R147). -/
  | vidWr (sz : Size) (addr : Addr) (data : Word)
  /-- VIDINV.RD (R148). -/
  | vidinvRd (sz : Size) (addr : Addr)
  /-- VIDINV.WR (R149). -/
  | vidinvWr (sz : Size) (addr : Addr) (data : Word)
  /-- ROM.RD (R136). -/
  | romRd (sz : Size) (region : Fin 5) (addr : Addr)
  /-- ROM.WR (R137). -/
  | romWr (sz : Size) (region : Fin 5) (addr : Addr) (data : Word)
  /-- UNUSED.RD (R132). -/
  | unusedRd (sz : Size) (addr : Addr)
  /-- UNUSED.WR (R133). -/
  | unusedWr (sz : Size) (addr : Addr) (data : Word)
  /-- RAM.RD (R134). -/
  | ramRd (sz : Size) (addr : Addr)
  /-- RAM.WR (R135). -/
  | ramWr (sz : Size) (addr : Addr) (data : Word)
  /-- POWERON (R360). -/
  | poweron (config : PowerConfig)
  /-- SCANLINE (R290). -/
  | scanline
  /-- SETTYPE (R311). -/
  | settype (v : BitVec 4) (t : Byte)
  /-- SETKEYMAP (R312). -/
  | setkeymap (v : BitVec 4) (keys : List (BitVec 16))
  /-- KEYDOWN (R314). -/
  | keydown (code : BitVec 16)
  /-- KEYUP (R315). -/
  | keyup (code : BitVec 16)
  /-- MOUSEMOVE (R316). -/
  | mousemove (v : BitVec 4) (dx dy : BitVec 16)
  /-- GETSTATE (R320). -/
  | getstate
  /-- SETSTATE (R321). -/
  | setstate (sv : Saved)
  deriving DecidableEq, Repr

end Sys2Proof
end

