-- ==== Sys2Proof/WellFormed.lean ====
section
/-! DEFINITION. Which terms of `Instr` spell an operation in its one form, as far as their operands go: lists are in the
canonical form the model keeps stores in, and a key list has a length its 8-bit count can say. Decoding gives only such
terms. (Where an address must lie for a bus operation is `Instr.placed`, in Decode.lean.) -/

namespace Sys2Proof

/-- An image lists only bytes of the image, by rising address, other than 0x00. -/
def RomImage.wf (r : RomImage) : Bool := Machine.Memory.wf (some 0x00#8) r.len r.cells

/-- The image of a session is in its one form; every other parameter may be anything (93_implementation_defined.md U13). -/
def Session.wf (c : Session) : Bool := c.rom.wf

/-- The save contents a session is given are those of its windows. -/
def PowerConfig.wf (c : PowerConfig) : Bool :=
  c.session.wf && Machine.Memory.wf (some 0xFF#8) c.session.sramLen c.sram
    && Machine.Memory.wf (some 0xFF#8) c.session.eepLen c.eep

/-- The stores of a savestate value are those of its own lengths. -/
def Machine.Saved.wf (sv : Machine.Saved) : Bool :=
  Machine.Memory.wf none 0x10000 sv.ram && Machine.Memory.wf (some 0xFF#8) sv.sramLen sv.sram
    && Machine.Memory.wf (some 0xFF#8) sv.eepLen sv.eep

/-- The operands of an operation are well formed. -/
def Instr.wf : Instr → Bool
  | .pselWr .. => true
  | .auxRd .. => true
  | .auxWr .. => true
  | .secRdb .. => true
  | .secRdw .. => true
  | .secWrb .. => true
  | .secWrw .. => true
  | .versionRd .. => true
  | .versionWr .. => true
  | .data1Rd .. => true
  | .data1Wr .. => true
  | .data2Rd .. => true
  | .data2Wr .. => true
  | .data3Rd .. => true
  | .data3Wr .. => true
  | .ctrl1Rd .. => true
  | .ctrl1Wr .. => true
  | .ctrl2Rd .. => true
  | .ctrl2Wr .. => true
  | .ctrl3Rd .. => true
  | .ctrl3Wr .. => true
  | .txdata1Rd .. => true
  | .txdata1Wr .. => true
  | .rxdata1Rd .. => true
  | .rxdata1Wr .. => true
  | .sctrl1Rd .. => true
  | .sctrl1Wr .. => true
  | .txdata2Rd .. => true
  | .txdata2Wr .. => true
  | .rxdata2Rd .. => true
  | .rxdata2Wr .. => true
  | .sctrl2Rd .. => true
  | .sctrl2Wr .. => true
  | .txdata3Rd .. => true
  | .txdata3Wr .. => true
  | .rxdata3Rd .. => true
  | .rxdata3Wr .. => true
  | .sctrl3Rd .. => true
  | .sctrl3Wr .. => true
  | .busreqRd .. => true
  | .busreqWr .. => true
  | .sresetRd .. => true
  | .sresetWr .. => true
  | .ioinvRd .. => true
  | .ioinvWr .. => true
  | .vidRd .. => true
  | .vidWr .. => true
  | .vidinvRd .. => true
  | .vidinvWr .. => true
  | .romRd .. => true
  | .romWr .. => true
  | .unusedRd .. => true
  | .unusedWr .. => true
  | .ramRd .. => true
  | .ramWr .. => true
  | .poweron p => p.wf
  | .scanline => true
  | .settype .. => true
  | .setkeymap _ keys => decide (keys.length < 256)
  | .keydown .. => true
  | .keyup .. => true
  | .mousemove .. => true
  | .getstate => true
  | .setstate sv => sv.wf

end Sys2Proof
end

