-- ==== Sys2Proof/Decode.lean ====
section
/-! DEFINITION. Decoding an operation word into its operation (30_encoding.md R100 to R108), total and rejecting by
name; the encoder, from the same formats; and the opcode table itself as rows of match and mask (R105). -/

namespace Sys2Proof

open Machine (align bankOf offsetOf ioIndex)

/-- The sixteen I/O registers, in the order of their index (R107). -/
inductive IoReg where
  | version
  | data1
  | data2
  | data3
  | ctrl1
  | ctrl2
  | ctrl3
  | txdata1
  | rxdata1
  | sctrl1
  | txdata2
  | rxdata2
  | sctrl2
  | txdata3
  | rxdata3
  | sctrl3
  deriving DecidableEq, Repr

/-- The register of index `offset[4:1]` (R107). -/
def ioReg (i : BitVec 4) : IoReg :=
  match i.toNat with
  | 0 => .version
  | 1 => .data1
  | 2 => .data2
  | 3 => .data3
  | 4 => .ctrl1
  | 5 => .ctrl2
  | 6 => .ctrl3
  | 7 => .txdata1
  | 8 => .rxdata1
  | 9 => .sctrl1
  | 10 => .txdata2
  | 11 => .rxdata2
  | 12 => .sctrl2
  | 13 => .txdata3
  | 14 => .rxdata3
  | _ => .sctrl3

/-- What a bus address selects (R104). -/
inductive Target where
  | unused
  | ram
  | rom (region : Fin 5)
  | vid
  | vidinv
  | psel
  | aux
  | sec
  | ioreg (r : IoReg)
  | busreq
  | sreset
  | ioinv
  deriving DecidableEq, Repr

/-- The second stage inside an IO-tagged bank, first match wins (R104, 20_memory.md R82). -/
def BusMap.selectIo (m : BusMap) (k : MapperKind) (wr : Bool) (off : BitVec 21) : Target :=
  if m.auxBase ≤ off.toNat ∧ off.toNat < m.auxBase + m.auxLen then
    if wr = true ∧ k = .banked ∧ off.extractLsb' 4 4 = 0xF#4 then .psel else .aux
  else if off.toNat < m.secLimit then .sec
  else if m.ioregBase ≤ off.toNat ∧ off.toNat < m.ioregBase + 0x20 then .ioreg (ioReg (off.extractLsb' 1 4))
  else if off &&& 0x1FFFFE#21 = m.busreqOff then .busreq
  else if off &&& 0x1FFFFE#21 = m.sresetOff then .sreset
  else .ioinv

/-- The target of a bus transaction: the bank's tag by the top three address bits, then the second stage inside the
I/O and video banks (R104). A word transaction is decoded once, from its even address (20_memory.md R76). -/
def BusMap.select (m : BusMap) (k : MapperKind) (wr : Bool) (sz : Size) (addr : Addr) : Target :=
  match m.bankTag[bankOf (align sz addr)] with
  | .rom r => .rom r
  | .ram => .ram
  | .unused => .unused
  | .video => if offsetOf (align sz addr) &&& m.vmask = 0#21 then .vid else .vidinv
  | .io => m.selectIo k wr (offsetOf (align sz addr))

/-- Why an operation word spells no operation (R108). -/
inductive DecodeError where
  /-- `CLASS` is 0x2 to 0xF. -/
  | reservedClass
  /-- `CLASS = 0` and `ZERO` is not 00. -/
  | zeroBits
  /-- `CLASS = 1` and `CALL` is above 0x08. -/
  | unknownCall
  /-- `CLASS = 1` and an `ARG` bit the call does not use is set. -/
  | strayArgument
  deriving DecidableEq, Repr

/-- What the decoder answers. -/
inductive Decoded where
  | ok (i : Instr)
  | invalid (e : DecodeError)
  deriving DecidableEq, Repr

/-- The operation of a bus read (R104). -/
def readOf (t : Target) (sz : Size) (addr : Addr) (o : Operands) : Instr :=
  match t with
  | .unused => .unusedRd sz addr
  | .ram => .ramRd sz addr
  | .rom r => .romRd sz r addr
  | .vid => .vidRd sz addr
  | .vidinv => .vidinvRd sz addr
  | .psel => .auxRd sz addr
  | .aux => .auxRd sz addr
  | .sec => match sz with
    | .byte => .secRdb addr
    | .word => .secRdw addr
  | .ioreg .version => .versionRd sz addr
  | .ioreg .data1 => .data1Rd sz addr
  | .ioreg .data2 => .data2Rd sz addr
  | .ioreg .data3 => .data3Rd sz addr
  | .ioreg .ctrl1 => .ctrl1Rd sz addr
  | .ioreg .ctrl2 => .ctrl2Rd sz addr
  | .ioreg .ctrl3 => .ctrl3Rd sz addr
  | .ioreg .txdata1 => .txdata1Rd sz addr
  | .ioreg .rxdata1 => .rxdata1Rd sz addr
  | .ioreg .sctrl1 => .sctrl1Rd sz addr
  | .ioreg .txdata2 => .txdata2Rd sz addr
  | .ioreg .rxdata2 => .rxdata2Rd sz addr
  | .ioreg .sctrl2 => .sctrl2Rd sz addr
  | .ioreg .txdata3 => .txdata3Rd sz addr
  | .ioreg .rxdata3 => .rxdata3Rd sz addr
  | .ioreg .sctrl3 => .sctrl3Rd sz addr
  | .busreq => .busreqRd sz addr o.clk
  | .sreset => .sresetRd sz addr
  | .ioinv => .ioinvRd sz addr

/-- The operation of a bus write (R104). -/
def writeOf (t : Target) (sz : Size) (addr : Addr) (o : Operands) : Instr :=
  match t with
  | .unused => .unusedWr sz addr o.data
  | .ram => .ramWr sz addr o.data
  | .rom r => .romWr sz r addr o.data
  | .vid => .vidWr sz addr o.data
  | .vidinv => .vidinvWr sz addr o.data
  | .psel => .pselWr sz addr o.data
  | .aux => .auxWr sz addr o.data
  | .sec => match sz with
    | .byte => .secWrb addr o.data
    | .word => .secWrw addr o.data
  | .ioreg .version => .versionWr sz addr o.data
  | .ioreg .data1 => .data1Wr sz addr o.data
  | .ioreg .data2 => .data2Wr sz addr o.data
  | .ioreg .data3 => .data3Wr sz addr o.data
  | .ioreg .ctrl1 => .ctrl1Wr sz addr o.data
  | .ioreg .ctrl2 => .ctrl2Wr sz addr o.data
  | .ioreg .ctrl3 => .ctrl3Wr sz addr o.data
  | .ioreg .txdata1 => .txdata1Wr sz addr o.data
  | .ioreg .rxdata1 => .rxdata1Wr sz addr o.data
  | .ioreg .sctrl1 => .sctrl1Wr sz addr o.data
  | .ioreg .txdata2 => .txdata2Wr sz addr o.data
  | .ioreg .rxdata2 => .rxdata2Wr sz addr o.data
  | .ioreg .sctrl2 => .sctrl2Wr sz addr o.data
  | .ioreg .txdata3 => .txdata3Wr sz addr o.data
  | .ioreg .rxdata3 => .rxdata3Wr sz addr o.data
  | .ioreg .sctrl3 => .sctrl3Wr sz addr o.data
  | .busreq => .busreqWr sz addr o.data o.clk
  | .sreset => .sresetWr sz addr o.data
  | .ioinv => .ioinvWr sz addr o.data

/-- `SZ` of a bus word: bit 24 (R101). -/
def sizeBit (w : OpWord) : Size := if w.getLsbD 24 then .word else .byte

/-- Format BUS (R101, R104). -/
def decodeBus (m : BusMap) (k : MapperKind) (w : OpWord) (o : Operands) : Instr :=
  let sz := sizeBit w
  let addr := w.extractLsb' 0 24
  if w.getLsbD 25 then writeOf (m.select k true sz addr) sz addr o
  else readOf (m.select k false sz addr) sz addr o

/-- The key list of a SETKEYMAP: as many keys as its count says, absent ones zero (R102, log entry 5). -/
def keysOf (n : Nat) (keys : List (BitVec 16)) : List (BitVec 16) :=
  (List.range n).map fun i => keys.getD i 0#16

/-- The image a list of cells spells, in its one form (10_state.md R26). -/
def RomImage.canon (r : RomImage) : RomImage := { r with cells := r.cells.canon (some 0x00#8) r.len }

/-- The session and the prior save contents a POWERON operand spells: each list of cells in the form of the array it
stands for (R27; log entry 6). -/
def PowerConfig.canon (c : PowerConfig) : PowerConfig :=
  { c with
    session := { c.session with rom := c.session.rom.canon }
    sram := c.sram.canon (some 0xFF#8) c.session.sramLen
    eep := c.eep.canon (some 0xFF#8) c.session.eepLen }

/-- The state value a SETSTATE operand spells (R25, R27; log entry 6). -/
def Machine.Saved.canon (sv : Machine.Saved) : Machine.Saved :=
  { sv with
    ram := sv.ram.canon none 0x10000
    sram := sv.sram.canon (some 0xFF#8) sv.sramLen
    eep := sv.eep.canon (some 0xFF#8) sv.eepLen }

/-- Accept an environment call when the `ARG` bits it does not use are zero. -/
def withUnused (unused : Bool) (i : Instr) : Decoded := if unused then .ok i else .invalid .strayArgument

/-- Format ENV (R102). -/
def decodeEnv (w : OpWord) (o : Operands) : Decoded :=
  let arg := w.extractLsb' 0 20
  let v := w.extractLsb' 8 4
  match (w.extractLsb' 20 8).toNat with
  | 0x00 => withUnused (arg == 0#20) (.poweron o.power.canon)
  | 0x01 => withUnused (arg == 0#20) .scanline
  | 0x02 => withUnused (arg.extractLsb' 12 8 == 0#8) (.settype v (w.extractLsb' 0 8))
  | 0x03 => withUnused (arg.extractLsb' 12 8 == 0#8) (.setkeymap v (keysOf (w.extractLsb' 0 8).toNat o.keys))
  | 0x04 => withUnused (arg.extractLsb' 16 4 == 0#4) (.keydown (w.extractLsb' 0 16))
  | 0x05 => withUnused (arg.extractLsb' 16 4 == 0#4) (.keyup (w.extractLsb' 0 16))
  | 0x06 => withUnused (arg.extractLsb' 12 8 == 0#8 && arg.extractLsb' 0 8 == 0#8) (.mousemove v o.dx o.dy)
  | 0x07 => withUnused (arg == 0#20) .getstate
  | 0x08 => withUnused (arg == 0#20) (.setstate o.saved.canon)
  | _ => .invalid .unknownCall

/-- The decoder: total, and what spells no operation is rejected by name (R104, R108). It reads the address map and
the mapper variant and nothing else (R111). -/
def decode (m : BusMap) (k : MapperKind) (r : Request) : Decoded :=
  match (r.opw.extractLsb' 28 4).toNat with
  | 0x0 => if r.opw.extractLsb' 26 2 = 0#2 then .ok (decodeBus m k r.opw r.ops) else .invalid .zeroBits
  | 0x1 => decodeEnv r.opw r.ops
  | _ => .invalid .reservedClass

/-- The request a word numbered as opcode_table.json numbers it stands for: the word, with operands of zeros. -/
def requestOfWord (nbits w : Nat) : Request := ⟨BitVec.ofNat 32 (w % 2 ^ nbits), Operands.zero⟩

/-- The instruction the decoder reads from a word, under the default map and the power-on mapper variant. -/
def decodeTableWord (nbits w : Nat) : Option Instr :=
  match decode BusMap.default PowerConfig.default.kind (requestOfWord nbits w) with
  | .ok i => some i
  | .invalid _ => none

/-! ## The encoder -/

/-- A BUS operation word (R101). -/
def busWord (wr : Bool) (sz : Size) (addr : Addr) : OpWord :=
  0x0#4 ++ 0#2 ++ BitVec.ofBool wr ++ (match sz with | .byte => 0#1 | .word => 1#1) ++ addr

/-- An ENV operation word (R102). -/
def envWord (call : Byte) (arg : BitVec 20) : OpWord := 0x1#4 ++ call ++ arg

/-- A bus read as an agent issues it. -/
def busRead (sz : Size) (addr : Addr) : Request := ⟨busWord false sz addr, Operands.zero⟩

/-- A bus write as an agent issues it. -/
def busWrite (sz : Size) (addr : Addr) (data : Word) : Request :=
  ⟨busWord true sz addr, { Operands.zero with data := data }⟩

/-- The request that spells an operation (R101, R102). -/
def encode : Instr → Request
  | .pselWr sz addr data => busWrite sz addr data
  | .auxRd sz addr => busRead sz addr
  | .auxWr sz addr data => busWrite sz addr data
  | .secRdb addr => busRead .byte addr
  | .secRdw addr => busRead .word addr
  | .secWrb addr data => busWrite .byte addr data
  | .secWrw addr data => busWrite .word addr data
  | .versionRd sz addr => busRead sz addr
  | .versionWr sz addr data => busWrite sz addr data
  | .data1Rd sz addr => busRead sz addr
  | .data1Wr sz addr data => busWrite sz addr data
  | .data2Rd sz addr => busRead sz addr
  | .data2Wr sz addr data => busWrite sz addr data
  | .data3Rd sz addr => busRead sz addr
  | .data3Wr sz addr data => busWrite sz addr data
  | .ctrl1Rd sz addr => busRead sz addr
  | .ctrl1Wr sz addr data => busWrite sz addr data
  | .ctrl2Rd sz addr => busRead sz addr
  | .ctrl2Wr sz addr data => busWrite sz addr data
  | .ctrl3Rd sz addr => busRead sz addr
  | .ctrl3Wr sz addr data => busWrite sz addr data
  | .txdata1Rd sz addr => busRead sz addr
  | .txdata1Wr sz addr data => busWrite sz addr data
  | .rxdata1Rd sz addr => busRead sz addr
  | .rxdata1Wr sz addr data => busWrite sz addr data
  | .sctrl1Rd sz addr => busRead sz addr
  | .sctrl1Wr sz addr data => busWrite sz addr data
  | .txdata2Rd sz addr => busRead sz addr
  | .txdata2Wr sz addr data => busWrite sz addr data
  | .rxdata2Rd sz addr => busRead sz addr
  | .rxdata2Wr sz addr data => busWrite sz addr data
  | .sctrl2Rd sz addr => busRead sz addr
  | .sctrl2Wr sz addr data => busWrite sz addr data
  | .txdata3Rd sz addr => busRead sz addr
  | .txdata3Wr sz addr data => busWrite sz addr data
  | .rxdata3Rd sz addr => busRead sz addr
  | .rxdata3Wr sz addr data => busWrite sz addr data
  | .sctrl3Rd sz addr => busRead sz addr
  | .sctrl3Wr sz addr data => busWrite sz addr data
  | .busreqRd sz addr clk => ⟨busWord false sz addr, { Operands.zero with clk := clk }⟩
  | .busreqWr sz addr data clk => ⟨busWord true sz addr, { Operands.zero with data := data, clk := clk }⟩
  | .sresetRd sz addr => busRead sz addr
  | .sresetWr sz addr data => busWrite sz addr data
  | .ioinvRd sz addr => busRead sz addr
  | .ioinvWr sz addr data => busWrite sz addr data
  | .vidRd sz addr => busRead sz addr
  | .vidWr sz addr data => busWrite sz addr data
  | .vidinvRd sz addr => busRead sz addr
  | .vidinvWr sz addr data => busWrite sz addr data
  | .romRd sz _ addr => busRead sz addr
  | .romWr sz _ addr data => busWrite sz addr data
  | .unusedRd sz addr => busRead sz addr
  | .unusedWr sz addr data => busWrite sz addr data
  | .ramRd sz addr => busRead sz addr
  | .ramWr sz addr data => busWrite sz addr data
  | .poweron config => ⟨envWord 0x00#8 0#20, { Operands.zero with power := config }⟩
  | .scanline => ⟨envWord 0x01#8 0#20, Operands.zero⟩
  | .settype v t => ⟨envWord 0x02#8 (0#8 ++ v ++ t), Operands.zero⟩
  | .setkeymap v keys => ⟨envWord 0x03#8 (0#8 ++ v ++ BitVec.ofNat 8 keys.length), { Operands.zero with keys := keys }⟩
  | .keydown code => ⟨envWord 0x04#8 (0#4 ++ code), Operands.zero⟩
  | .keyup code => ⟨envWord 0x05#8 (0#4 ++ code), Operands.zero⟩
  | .mousemove v dx dy => ⟨envWord 0x06#8 (0#8 ++ v ++ 0#8), { Operands.zero with dx := dx, dy := dy }⟩
  | .getstate => ⟨envWord 0x07#8 0#20, Operands.zero⟩
  | .setstate sv => ⟨envWord 0x08#8 0#20, { Operands.zero with saved := sv }⟩

/-- The operation's address selects its own target, under this map and mapper variant: where an operation of each name
must lie (R104). An environment call lies nowhere. -/
def Instr.placed (m : BusMap) (k : MapperKind) : Instr → Bool
  | .pselWr sz addr _ => m.select k true sz addr == .psel
  | .auxRd sz addr => m.select k false sz addr == .aux
  | .auxWr sz addr _ => m.select k true sz addr == .aux
  | .secRdb addr => m.select k false .byte addr == .sec
  | .secRdw addr => m.select k false .word addr == .sec
  | .secWrb addr _ => m.select k true .byte addr == .sec
  | .secWrw addr _ => m.select k true .word addr == .sec
  | .versionRd sz addr => m.select k false sz addr == .ioreg .version
  | .versionWr sz addr _ => m.select k true sz addr == .ioreg .version
  | .data1Rd sz addr => m.select k false sz addr == .ioreg .data1
  | .data1Wr sz addr _ => m.select k true sz addr == .ioreg .data1
  | .data2Rd sz addr => m.select k false sz addr == .ioreg .data2
  | .data2Wr sz addr _ => m.select k true sz addr == .ioreg .data2
  | .data3Rd sz addr => m.select k false sz addr == .ioreg .data3
  | .data3Wr sz addr _ => m.select k true sz addr == .ioreg .data3
  | .ctrl1Rd sz addr => m.select k false sz addr == .ioreg .ctrl1
  | .ctrl1Wr sz addr _ => m.select k true sz addr == .ioreg .ctrl1
  | .ctrl2Rd sz addr => m.select k false sz addr == .ioreg .ctrl2
  | .ctrl2Wr sz addr _ => m.select k true sz addr == .ioreg .ctrl2
  | .ctrl3Rd sz addr => m.select k false sz addr == .ioreg .ctrl3
  | .ctrl3Wr sz addr _ => m.select k true sz addr == .ioreg .ctrl3
  | .txdata1Rd sz addr => m.select k false sz addr == .ioreg .txdata1
  | .txdata1Wr sz addr _ => m.select k true sz addr == .ioreg .txdata1
  | .rxdata1Rd sz addr => m.select k false sz addr == .ioreg .rxdata1
  | .rxdata1Wr sz addr _ => m.select k true sz addr == .ioreg .rxdata1
  | .sctrl1Rd sz addr => m.select k false sz addr == .ioreg .sctrl1
  | .sctrl1Wr sz addr _ => m.select k true sz addr == .ioreg .sctrl1
  | .txdata2Rd sz addr => m.select k false sz addr == .ioreg .txdata2
  | .txdata2Wr sz addr _ => m.select k true sz addr == .ioreg .txdata2
  | .rxdata2Rd sz addr => m.select k false sz addr == .ioreg .rxdata2
  | .rxdata2Wr sz addr _ => m.select k true sz addr == .ioreg .rxdata2
  | .sctrl2Rd sz addr => m.select k false sz addr == .ioreg .sctrl2
  | .sctrl2Wr sz addr _ => m.select k true sz addr == .ioreg .sctrl2
  | .txdata3Rd sz addr => m.select k false sz addr == .ioreg .txdata3
  | .txdata3Wr sz addr _ => m.select k true sz addr == .ioreg .txdata3
  | .rxdata3Rd sz addr => m.select k false sz addr == .ioreg .rxdata3
  | .rxdata3Wr sz addr _ => m.select k true sz addr == .ioreg .rxdata3
  | .sctrl3Rd sz addr => m.select k false sz addr == .ioreg .sctrl3
  | .sctrl3Wr sz addr _ => m.select k true sz addr == .ioreg .sctrl3
  | .busreqRd sz addr _ => m.select k false sz addr == .busreq
  | .busreqWr sz addr _ _ => m.select k true sz addr == .busreq
  | .sresetRd sz addr => m.select k false sz addr == .sreset
  | .sresetWr sz addr _ => m.select k true sz addr == .sreset
  | .ioinvRd sz addr => m.select k false sz addr == .ioinv
  | .ioinvWr sz addr _ => m.select k true sz addr == .ioinv
  | .vidRd sz addr => m.select k false sz addr == .vid
  | .vidWr sz addr _ => m.select k true sz addr == .vid
  | .vidinvRd sz addr => m.select k false sz addr == .vidinv
  | .vidinvWr sz addr _ => m.select k true sz addr == .vidinv
  | .romRd sz r addr => m.select k false sz addr == .rom r
  | .romWr sz r addr _ => m.select k true sz addr == .rom r
  | .unusedRd sz addr => m.select k false sz addr == .unused
  | .unusedWr sz addr _ => m.select k true sz addr == .unused
  | .ramRd sz addr => m.select k false sz addr == .ram
  | .ramWr sz addr _ => m.select k true sz addr == .ram
  | .poweron .. => true
  | .scanline => true
  | .settype .. => true
  | .setkeymap .. => true
  | .keydown .. => true
  | .keyup .. => true
  | .mousemove .. => true
  | .getstate => true
  | .setstate .. => true

/-! ## The opcode table -/

/-- One row of spec/opcode_table.json: a mnemonic, its match and mask, and whether its `cond`, `MapperKind = BANKED`,
is asked for. -/
structure Row where
  mnemonic : String
  pattern : OpWord
  mask : OpWord
  banked : Bool
  deriving DecidableEq, Repr

/-- The rows of the cartridge and secondary windows. -/
def tableWindows : List Row := [
  ⟨"PSEL.WR", 0x02A130F0#32, 0xFEFFFFF0#32, true⟩,
  ⟨"AUX.RD", 0x00A13000#32, 0xFEFFFF00#32, false⟩,
  ⟨"AUX.WR", 0x02A13000#32, 0xFEFFFF00#32, false⟩,
  ⟨"SEC.RDB", 0x00A00000#32, 0xFFFF0000#32, false⟩,
  ⟨"SEC.RDW", 0x01A00000#32, 0xFFFF0000#32, false⟩,
  ⟨"SEC.WRB", 0x02A00000#32, 0xFFFF0000#32, false⟩,
  ⟨"SEC.WRW", 0x03A00000#32, 0xFFFF0000#32, false⟩]

/-- The rows of the I/O registers, ports 1 to 3. -/
def tablePorts : List Row := [
  ⟨"VERSION.RD", 0x00A10000#32, 0xFEFFFFFE#32, false⟩,
  ⟨"VERSION.WR", 0x02A10000#32, 0xFEFFFFFE#32, false⟩,
  ⟨"DATA1.RD", 0x00A10002#32, 0xFEFFFFFE#32, false⟩,
  ⟨"DATA1.WR", 0x02A10002#32, 0xFEFFFFFE#32, false⟩,
  ⟨"DATA2.RD", 0x00A10004#32, 0xFEFFFFFE#32, false⟩,
  ⟨"DATA2.WR", 0x02A10004#32, 0xFEFFFFFE#32, false⟩,
  ⟨"DATA3.RD", 0x00A10006#32, 0xFEFFFFFE#32, false⟩,
  ⟨"DATA3.WR", 0x02A10006#32, 0xFEFFFFFE#32, false⟩,
  ⟨"CTRL1.RD", 0x00A10008#32, 0xFEFFFFFE#32, false⟩,
  ⟨"CTRL1.WR", 0x02A10008#32, 0xFEFFFFFE#32, false⟩,
  ⟨"CTRL2.RD", 0x00A1000A#32, 0xFEFFFFFE#32, false⟩,
  ⟨"CTRL2.WR", 0x02A1000A#32, 0xFEFFFFFE#32, false⟩,
  ⟨"CTRL3.RD", 0x00A1000C#32, 0xFEFFFFFE#32, false⟩,
  ⟨"CTRL3.WR", 0x02A1000C#32, 0xFEFFFFFE#32, false⟩,
  ⟨"TXDATA1.RD", 0x00A1000E#32, 0xFEFFFFFE#32, false⟩,
  ⟨"TXDATA1.WR", 0x02A1000E#32, 0xFEFFFFFE#32, false⟩]

/-- The rows of the I/O registers, serial. -/
def tableSerial : List Row := [
  ⟨"RXDATA1.RD", 0x00A10010#32, 0xFEFFFFFE#32, false⟩,
  ⟨"RXDATA1.WR", 0x02A10010#32, 0xFEFFFFFE#32, false⟩,
  ⟨"SCTRL1.RD", 0x00A10012#32, 0xFEFFFFFE#32, false⟩,
  ⟨"SCTRL1.WR", 0x02A10012#32, 0xFEFFFFFE#32, false⟩,
  ⟨"TXDATA2.RD", 0x00A10014#32, 0xFEFFFFFE#32, false⟩,
  ⟨"TXDATA2.WR", 0x02A10014#32, 0xFEFFFFFE#32, false⟩,
  ⟨"RXDATA2.RD", 0x00A10016#32, 0xFEFFFFFE#32, false⟩,
  ⟨"RXDATA2.WR", 0x02A10016#32, 0xFEFFFFFE#32, false⟩,
  ⟨"SCTRL2.RD", 0x00A10018#32, 0xFEFFFFFE#32, false⟩,
  ⟨"SCTRL2.WR", 0x02A10018#32, 0xFEFFFFFE#32, false⟩,
  ⟨"TXDATA3.RD", 0x00A1001A#32, 0xFEFFFFFE#32, false⟩,
  ⟨"TXDATA3.WR", 0x02A1001A#32, 0xFEFFFFFE#32, false⟩,
  ⟨"RXDATA3.RD", 0x00A1001C#32, 0xFEFFFFFE#32, false⟩,
  ⟨"RXDATA3.WR", 0x02A1001C#32, 0xFEFFFFFE#32, false⟩,
  ⟨"SCTRL3.RD", 0x00A1001E#32, 0xFEFFFFFE#32, false⟩,
  ⟨"SCTRL3.WR", 0x02A1001E#32, 0xFEFFFFFE#32, false⟩]

/-- The rows of the arbiter, invalid, video, ROM, unused, RAM. -/
def tableBanks : List Row := [
  ⟨"BUSREQ.RD", 0x00A11100#32, 0xFEFFFFFE#32, false⟩,
  ⟨"BUSREQ.WR", 0x02A11100#32, 0xFEFFFFFE#32, false⟩,
  ⟨"SRESET.RD", 0x00A11200#32, 0xFEFFFFFE#32, false⟩,
  ⟨"SRESET.WR", 0x02A11200#32, 0xFEFFFFFE#32, false⟩,
  ⟨"IOINV.RD", 0x00A00000#32, 0xFEE00000#32, false⟩,
  ⟨"IOINV.WR", 0x02A00000#32, 0xFEE00000#32, false⟩,
  ⟨"VID.RD", 0x00C00000#32, 0xFEE700E0#32, false⟩,
  ⟨"VID.WR", 0x02C00000#32, 0xFEE700E0#32, false⟩,
  ⟨"VIDINV.RD", 0x00C00000#32, 0xFEE00000#32, false⟩,
  ⟨"VIDINV.WR", 0x02C00000#32, 0xFEE00000#32, false⟩,
  ⟨"ROM.RD", 0x00000000#32, 0xFE800000#32, false⟩,
  ⟨"ROM.WR", 0x02000000#32, 0xFE800000#32, false⟩,
  ⟨"UNUSED.RD", 0x00800000#32, 0xFEE00000#32, false⟩,
  ⟨"UNUSED.WR", 0x02800000#32, 0xFEE00000#32, false⟩,
  ⟨"RAM.RD", 0x00E00000#32, 0xFEE00000#32, false⟩,
  ⟨"RAM.WR", 0x02E00000#32, 0xFEE00000#32, false⟩]

/-- The rows of the environment calls. -/
def tableCalls : List Row := [
  ⟨"POWERON", 0x10000000#32, 0xFFFFFFFF#32, false⟩,
  ⟨"SCANLINE", 0x10100000#32, 0xFFFFFFFF#32, false⟩,
  ⟨"SETTYPE", 0x10200000#32, 0xFFFFF000#32, false⟩,
  ⟨"SETKEYMAP", 0x10300000#32, 0xFFFFF000#32, false⟩,
  ⟨"KEYDOWN", 0x10400000#32, 0xFFFF0000#32, false⟩,
  ⟨"KEYUP", 0x10500000#32, 0xFFFF0000#32, false⟩,
  ⟨"MOUSEMOVE", 0x10600000#32, 0xFFFFF0FF#32, false⟩,
  ⟨"GETSTATE", 0x10700000#32, 0xFFFFFFFF#32, false⟩,
  ⟨"SETSTATE", 0x10800000#32, 0xFFFFFFFF#32, false⟩]

/-- The table, in priority order (R105), for the default map. -/
def opcodeTable : List Row :=
  tableWindows ++ tablePorts ++ tableSerial ++ tableBanks ++ tableCalls

/-- A row claims a word (R105). -/
def Row.claims (r : Row) (k : MapperKind) (w : OpWord) : Bool :=
  (w &&& r.mask == r.pattern) && (!r.banked || k == .banked)

/-- The first row, in order, that claims the word (R105). -/
def firstRow (k : MapperKind) (w : OpWord) : Option String :=
  (opcodeTable.find? fun r => r.claims k w).map Row.mnemonic

/-- The mnemonic of an operation, as the table spells it. -/
def Instr.mnemonic : Instr → String
  | .pselWr .. => "PSEL.WR"
  | .auxRd .. => "AUX.RD"
  | .auxWr .. => "AUX.WR"
  | .secRdb .. => "SEC.RDB"
  | .secRdw .. => "SEC.RDW"
  | .secWrb .. => "SEC.WRB"
  | .secWrw .. => "SEC.WRW"
  | .versionRd .. => "VERSION.RD"
  | .versionWr .. => "VERSION.WR"
  | .data1Rd .. => "DATA1.RD"
  | .data1Wr .. => "DATA1.WR"
  | .data2Rd .. => "DATA2.RD"
  | .data2Wr .. => "DATA2.WR"
  | .data3Rd .. => "DATA3.RD"
  | .data3Wr .. => "DATA3.WR"
  | .ctrl1Rd .. => "CTRL1.RD"
  | .ctrl1Wr .. => "CTRL1.WR"
  | .ctrl2Rd .. => "CTRL2.RD"
  | .ctrl2Wr .. => "CTRL2.WR"
  | .ctrl3Rd .. => "CTRL3.RD"
  | .ctrl3Wr .. => "CTRL3.WR"
  | .txdata1Rd .. => "TXDATA1.RD"
  | .txdata1Wr .. => "TXDATA1.WR"
  | .rxdata1Rd .. => "RXDATA1.RD"
  | .rxdata1Wr .. => "RXDATA1.WR"
  | .sctrl1Rd .. => "SCTRL1.RD"
  | .sctrl1Wr .. => "SCTRL1.WR"
  | .txdata2Rd .. => "TXDATA2.RD"
  | .txdata2Wr .. => "TXDATA2.WR"
  | .rxdata2Rd .. => "RXDATA2.RD"
  | .rxdata2Wr .. => "RXDATA2.WR"
  | .sctrl2Rd .. => "SCTRL2.RD"
  | .sctrl2Wr .. => "SCTRL2.WR"
  | .txdata3Rd .. => "TXDATA3.RD"
  | .txdata3Wr .. => "TXDATA3.WR"
  | .rxdata3Rd .. => "RXDATA3.RD"
  | .rxdata3Wr .. => "RXDATA3.WR"
  | .sctrl3Rd .. => "SCTRL3.RD"
  | .sctrl3Wr .. => "SCTRL3.WR"
  | .busreqRd .. => "BUSREQ.RD"
  | .busreqWr .. => "BUSREQ.WR"
  | .sresetRd .. => "SRESET.RD"
  | .sresetWr .. => "SRESET.WR"
  | .ioinvRd .. => "IOINV.RD"
  | .ioinvWr .. => "IOINV.WR"
  | .vidRd .. => "VID.RD"
  | .vidWr .. => "VID.WR"
  | .vidinvRd .. => "VIDINV.RD"
  | .vidinvWr .. => "VIDINV.WR"
  | .romRd .. => "ROM.RD"
  | .romWr .. => "ROM.WR"
  | .unusedRd .. => "UNUSED.RD"
  | .unusedWr .. => "UNUSED.WR"
  | .ramRd .. => "RAM.RD"
  | .ramWr .. => "RAM.WR"
  | .poweron .. => "POWERON"
  | .scanline => "SCANLINE"
  | .settype .. => "SETTYPE"
  | .setkeymap .. => "SETKEYMAP"
  | .keydown .. => "KEYDOWN"
  | .keyup .. => "KEYUP"
  | .mousemove .. => "MOUSEMOVE"
  | .getstate => "GETSTATE"
  | .setstate .. => "SETSTATE"

end Sys2Proof
end

