-- ==== Sys2Proof/Machine/State.lean ====
section
/-! DEFINITION. The state of CORE: every item of 10_state.md, the session configuration it runs under, and the model's
own fields (the operations waiting, the result and the events handed out, the count of free draws). -/

namespace Sys2Proof.Machine

/-- The reasons a step stops with a fault. There are none: 'CORE raises no exception, takes no trap and has no fault
state' (60_exceptions.md R330). -/
inductive Fault where
  deriving DecidableEq, Repr

/-- The reasons the model refuses a step. -/
inductive Refusal where
  /-- Raised by an arm of `exec` whose instruction has no meaning yet. Safe: nothing is claimed of it. -/
  | notModelled (mnemonic : String)
  /-- Raised by `step` on an operation word that spells no operation (30_encoding.md R108, U4: 'refuse in the decoder;
  the machine never sees them'). Safe. -/
  | invalidOperation (e : DecodeError)
  /-- Raised by POWERON with a configuration that breaks I3 (70_reset_and_hazards.md R360, U12: 'refuse the session').
  Safe. -/
  | illegalSession
  /-- Raised by POWERON of a QUIRK session without the quirk parameter (R360, 41_cartridge_mapper.md R181, U3: 'refuse
  the session'). Safe. -/
  | quirkNotSupplied
  deriving DecidableEq, Repr

/-- The state. -/
structure State where
  /-- The session configuration (10_state.md R24, 00_scope.md R6), the save enables among it (R27). -/
  session : Session
  /-- The mapper variant with the quirk payload (R28, R31). -/
  mapper : Mapper
  /-- `PageMap[0..7]` (R29). -/
  pageMap : Vector (BitVec 6) 8
  /-- `RAM[0..0xFFFF]` (R25): the bytes written since power-on. -/
  ram : Memory
  /-- The model's own: the number of the draw that filled `RAM` at power-on (U1). -/
  ramDraw : Nat
  /-- `SRAM` by index (R27): the bytes other than 0xFF. -/
  sram : Memory
  /-- `EEP` by index (R27): the bytes other than 0xFF. -/
  eep : Memory
  /-- `BA` (R32 to R34). -/
  arb : Arbiter
  /-- `CTRL` and `DOUT` of the three physical ports (R36). -/
  ports : Vector Port 3
  /-- `D[0..14]` (R37 to R44). -/
  devices : Vector Device 15
  /-- `KeyMap[0..14]` (R45). -/
  keyMap : Vector KeyRow 15
  /-- The model's own: the operations the agents have issued and CORE has not performed yet, in order (20_memory.md
  R85). -/
  pending : List Request
  /-- The model's own: what the last operation returned. -/
  result : Result
  /-- The model's own: the output events so far, oldest first (00_scope.md R14). -/
  events : List Event
  /-- The model's own: how many free draws have been made (R14, U1, U2). -/
  draws : Nat
  deriving DecidableEq, Repr

/-- The machine right after power-on with the default session (10_state.md R51): nothing waits, nothing has been handed
out, and draw 0 filled RAM. -/
def State.reset : State where
  session := Session.default
  mapper := .banked
  pageMap := pageMapPowerOn
  ram := []
  ramDraw := 0
  sram := []
  eep := []
  arb := Arbiter.powerOn
  ports := Vector.replicate 3 Port.powerOn
  devices := Vector.ofFn fun v => Device.powerOn defaultTypes[v]
  keyMap := Vector.replicate 15 KeyRow.empty
  pending := []
  result := .none
  events := []
  draws := 1

end Sys2Proof.Machine
end

