-- ==== Sys2Proof/Machine/Flags.lean ====
section
/-! DEFINITION. The status CORE derives from its state: ownership, the open window, the clock conversion and the
composed status byte (10_state.md R35, 42_bus_arbiter.md R192, R193, R200). CORE has no arithmetic flags (R23). -/

namespace Sys2Proof.Machine

/-- The ownership state (10_state.md R35). -/
inductive Owner where
  | primaryOwns
  | secondaryRunning
  deriving DecidableEq, Repr

/-- `Owner` (R35). -/
def Arbiter.owner (b : Arbiter) : Owner := if b.req then .primaryOwns else .secondaryRunning

/-- `isSecondaryRunning()`: it owns its bus and is not held in reset (R35, 42_bus_arbiter.md R201). -/
def Arbiter.secRunning (b : Arbiter) : Bool := !b.req && !b.rst

/-- `SecWindowOpen`: a primary access is forwarded into the secondary's space (R35). -/
def Arbiter.windowOpen (b : Arbiter) : Bool := b.req && !b.rst

/-- `conv` in a session with `CONV_DEN = 0`: a free value at each count, within what R192 says of every `conv`, that it
is 0 at 0 and monotone (DESIGN CHOICE, log entry 23). -/
def convUnstated (num : Nat) : Nat → Nat
  | 0 => 0
  | n + 1 => convUnstated num n + Config.convStep num n

/-- `conv`: primary cycles to secondary cycles (R192). -/
def Session.conv (c : Session) (n : Nat) : Nat :=
  if c.convDen = 0 then convUnstated c.convNum n else n * c.convNum / c.convDen

/-- `SyncPos`: where the secondary's odometer stands level with the primary's position in the frame (R193). -/
def Session.syncPos (c : Session) (clk : Clk) : Nat :=
  truncSub clk.secTarget (Session.conv c (truncSub clk.priTarget clk.priNow))

/-- `statusByte()`: bit 0 is 1 while the bus is not granted, and inside the grace window after a stop edge it shows the
secondary's prior run-state (R200). -/
def statusByte (c : Session) (b : Arbiter) (clk : Clk) : Byte :=
  if b.req = false then c.statusHi ++ 1#1
  else if truncSub clk.priNow b.lastReqCycle ≤ c.graceCycles then
    c.statusHi ++ BitVec.ofBool b.lastReqPrior
  else c.statusHi ++ 0#1

end Sys2Proof.Machine
end

