-- ==== Sys2Proof/Machine/Ops.lean ====
section
/-! DEFINITION. The named operations over the state: each field's one update, the free draws, the output events, work
RAM, the save stores, a device and a port, and the two ways a call returns. CORE takes no exception and has no return
from one (60_exceptions.md R330, R338); REJECT is the one surfaced failure, and `reject` is its one operation. -/

namespace Sys2Proof.Machine

/-! ## One update per field -/

def State.withSession (s : State) (x : Session) : State := { s with session := x }
def State.withMapper (s : State) (x : Mapper) : State := { s with mapper := x }
def State.withPageMap (s : State) (x : Vector (BitVec 6) 8) : State := { s with pageMap := x }
def State.withRam (s : State) (x : Memory) : State := { s with ram := x }
def State.withSram (s : State) (x : Memory) : State := { s with sram := x }
def State.withEep (s : State) (x : Memory) : State := { s with eep := x }
def State.withArb (s : State) (x : Arbiter) : State := { s with arb := x }
def State.withPorts (s : State) (x : Vector Port 3) : State := { s with ports := x }
def State.withDevices (s : State) (x : Vector Device 15) : State := { s with devices := x }
def State.withKeyMap (s : State) (x : Vector KeyRow 15) : State := { s with keyMap := x }
def State.withPending (s : State) (x : List Request) : State := { s with pending := x }
def State.withResult (s : State) (x : Result) : State := { s with result := x }

/-- Record one output event after those before it (00_scope.md R14). -/
def State.emit (s : State) (e : Event) : State := { s with events := s.events ++ [e] }

/-- Use up one free draw. -/
def State.draw (s : State) : State := { s with draws := s.draws + 1 }

/-! ## How an operation ends -/

/-- The operation completes and hands out `r`. -/
def State.finish (s : State) (r : Result) : Host.Outcome State Fault Refusal := .next (s.withResult r)

/-- `return REJECT`: the call returns -1 and changes no state (00_scope.md R12, 60_exceptions.md R333). -/
def State.reject (s : State) : Host.Outcome State Fault Refusal := s.finish .reject

/-! ## Work RAM -/

/-- `RAM[i]`: the byte written there, or what power-on left (10_state.md R25, R51). -/
def State.ramByte (s : State) (i : Nat) : Byte := (s.ram.find i).getD (Config.ramPowerOn s.ramDraw i)

/-- `RAM[i] <- v` (40_router.md R135). -/
def State.setRamByte (s : State) (i : Nat) (v : Byte) : State := s.withRam (s.ram.put none i v)

/-! ## Save memory -/

/-- The two save stores (10_state.md R27). -/
inductive Store where
  | sram
  | eep
  deriving DecidableEq, Repr

/-- `store[i]`: what was written there, 0xFF where nothing was (10_state.md R51). -/
def State.storeByte (s : State) (st : Store) (i : Nat) : Byte :=
  match st with
  | .sram => s.sram.read 0xFF#8 i
  | .eep => s.eep.read 0xFF#8 i

/-- `store[i] <- v` (41_cartridge_mapper.md R171). -/
def State.setStoreByte (s : State) (st : Store) (i : Nat) (v : Byte) : State :=
  match st with
  | .sram => s.withSram (s.sram.put (some 0xFF#8) i v)
  | .eep => s.withEep (s.eep.put (some 0xFF#8) i v)

/-! ## Devices, ports, key maps and selectors, each through its index -/

/-- `D[v]`. -/
def State.dev (s : State) (v : Fin 15) : Device := s.devices[v]

/-- `D[v] <- d`. -/
def State.setDev (s : State) (v : Fin 15) (d : Device) : State := s.withDevices (s.devices.set v d)

/-- `CTRL[p]` and `DOUT[p]`. -/
def State.port (s : State) (p : Fin 3) : Port := s.ports[p]

/-- `CTRL[p], DOUT[p] <- x`. -/
def State.setPort (s : State) (p : Fin 3) (x : Port) : State := s.withPorts (s.ports.set p x)

/-- `KeyMap[v]`. -/
def State.keys (s : State) (v : Fin 15) : KeyRow := s.keyMap[v]

/-- `KeyMap[v] <- k`. -/
def State.setKeys (s : State) (v : Fin 15) (k : KeyRow) : State := s.withKeyMap (s.keyMap.set v k)

/-- `PageMap[k]`. -/
def State.page (s : State) (k : Fin 8) : BitVec 6 := s.pageMap[k]

/-- `PageMap[k] <- x`. -/
def State.setPage (s : State) (k : Fin 8) (x : BitVec 6) : State := s.withPageMap (s.pageMap.set k x)

/-! ## The next operation -/

/-- Take the oldest waiting operation (20_memory.md R85: in the order the agents issue them). -/
def State.fetch (s : State) : Option (Request × State) :=
  match s.pending with
  | [] => none
  | r :: rest => some (r, s.withPending rest)

end Sys2Proof.Machine
end

