-- ==== Sys2Proof/Machine/Arbitration.lean ====
section
/-! DEFINITION. The bus arbiter (42_bus_arbiter.md): the two edge-triggered lines and the two bus registers. -/

namespace Sys2Proof.Machine

/-- The stop edge, from secondary-running to primary-owns (R195). -/
def stopEdge (clk : Clk) (s : State) : State :=
  let prior := !s.arb.rst
  let t := s.withArb { s.arb with lastReqCycle := clk.priNow, lastReqPrior := prior, req := true }
  if prior then t.emit (.secAdvance (truncSub (Session.syncPos s.session clk) clk.secOdo)) else t

/-- The resume edge, from primary-owns back to secondary-running (R196). -/
def resumeEdge (clk : Clk) (s : State) : State :=
  (s.emit (.secSetOdo (Session.syncPos s.session clk))).withArb { s.arb with req := false }

/-- `requestRelease(want)`: it acts on an edge of the request line only (R194 to R196). -/
def requestRelease (clk : Clk) (want : Bool) (s : State) : State :=
  if want = false ∧ s.arb.req = false then stopEdge clk s
  else if want = true ∧ s.arb.req = true then resumeEdge clk s
  else s

/-- `reset(assert)`: it acts on an edge of the reset line only (R198, R199). -/
def resetLine (on : Bool) (s : State) : State :=
  if on = true ∧ s.arb.rst = false then ((s.withArb { s.arb with rst := true }).emit .secHalt).emit .soundReset
  else if on = false ∧ s.arb.rst = true then s.withArb { s.arb with rst := false }
  else s

/-- BUSREQ.RD (R203). -/
def execBusreqRd (sz : Size) (addr : Addr) (clk : Clk) (s : State) : Host.Outcome State Fault Refusal :=
  s.finish (readLanes sz addr (hiRegister (statusByte s.session s.arb clk)))

/-- BUSREQ.WR: bit 0 of the even byte requests, its absence releases (R204). -/
def execBusreqWr (sz : Size) (addr : Addr) (data : Word) (clk : Clk) (s : State) : Host.Outcome State Fault Refusal :=
  (writeLanes sz addr data (toHiRegister fun v t => requestRelease clk (!v.getLsbD 0) t) s).finish .none

/-- SRESET.RD: write-only, both lanes read 0xFF (R205). -/
def execSresetRd (sz : Size) (_addr : Addr) (s : State) : Host.Outcome State Fault Refusal := s.finish (sentinel sz)

/-- SRESET.WR: bit 0 of the even byte is the inverted reset line (R206). -/
def execSresetWr (sz : Size) (addr : Addr) (data : Word) (s : State) : Host.Outcome State Fault Refusal :=
  (writeLanes sz addr data (toHiRegister fun v t => resetLine (!v.getLsbD 0) t) s).finish .none

end Sys2Proof.Machine
end

