-- ==== Sys2Proof/Machine/HostOps.lean ====
section
/-! DEFINITION. The environment calls of the input, configuration and savestate layers (45_host_ops.md), and power-on
(70_reset_and_hazards.md R360). -/

namespace Sys2Proof.Machine

/-- A device made anew as type `t` where a device stood: the connector's line levels and serial registers stay (R311). -/
def Device.recreate (d : Device) (t : DevType) : Device :=
  { Device.powerOn t with lastLines := d.lastLines, serCtrl := d.serCtrl, serLastTx := d.serLastTx }

/-- A tap may sit on virtual port `v`: on a direct port only (10_state.md R39, R50 I3). -/
def typeAllowed (v : Fin 15) (t : DevType) : Bool := t != .tap || decide (v.val ≤ 2)

/-- SETTYPE (R311). -/
def execSettype (v : BitVec 4) (t : Byte) (s : State) : Host.Outcome State Fault Refusal :=
  match virtualPort v, typeOfCode t with
  | some v, some t =>
    if typeAllowed v t then
      ((s.setDev v ((s.dev v).recreate t)).setKeys v KeyRow.empty).finish .ok
    else s.reject
  | _, _ => s.reject

/-- The map a key array gives a device with `nb` buttons: longer arrays are truncated, missing keys unassigned (R312). -/
def keyRowOf (keys : List (BitVec 16)) (nb : Nat) : KeyRow :=
  Vector.ofFn fun i => if i.val < min keys.length nb then keys.getD i.val 0#16 else 0#16

/-- SETKEYMAP (R312). -/
def execSetkeymap (v : BitVec 4) (keys : List (BitVec 16)) (s : State) : Host.Outcome State Fault Refusal :=
  match virtualPort v with
  | some v =>
    ((s.setKeys v (keyRowOf keys (nbtn (s.dev v).type))).setDev v
      { s.dev v with buttons := unpressed (s.dev v).type }).finish .ok
  | none => s.reject

/-- The buttons with index below `n` whose key is `code`, as a mask (R314). -/
def keyMaskBelow (k : KeyRow) (nb : Nat) (code : BitVec 16) : Nat → BitVec 12
  | 0 => 0#12
  | n + 1 =>
    keyMaskBelow k nb code n |||
      (if h : n < 12 then if n < nb ∧ k[n] = code then 1#12 <<< n else 0#12 else 0#12)

/-- The buttons of a device that key `code` drives (R314, R315). -/
def keyMask (k : KeyRow) (t : DevType) (code : BitVec 16) : BitVec 12 := keyMaskBelow k (nbtn t) code 12

/-- The device after key `code` goes down or up: a pad's buttons are active low, a mouse's active high (R314, R315). -/
def Device.key (d : Device) (k : KeyRow) (code : BitVec 16) (down : Bool) : Device :=
  let m := keyMask k d.type code
  { d with buttons := if down = (d.type == .mouse) then d.buttons ||| m else d.buttons &&& ~~~m }

/-- A key event reaches every virtual port; code 0 is no key (R313 to R315). -/
def keyEvent (code : BitVec 16) (down : Bool) (s : State) : State :=
  if code = 0#16 then s
  else s.withDevices (Vector.ofFn fun v => s.devices[v].key s.keyMap[v] code down)

/-- KEYDOWN (R314). -/
def execKeydown (code : BitVec 16) (s : State) : Host.Outcome State Fault Refusal := (keyEvent code true s).finish .none

/-- KEYUP (R315). -/
def execKeyup (code : BitVec 16) (s : State) : Host.Outcome State Fault Refusal := (keyEvent code false s).finish .none

/-- A saturating signed sum (R316). -/
def addSat (a b : BitVec 16) : BitVec 16 := BitVec.ofInt 16 (sat16 (a.toInt + b.toInt))

/-- MOUSEMOVE (R316). -/
def execMousemove (v : BitVec 4) (dx dy : BitVec 16) (s : State) : Host.Outcome State Fault Refusal :=
  match virtualPort v with
  | some v =>
    if (s.dev v).type = .mouse then
      (s.setDev v { s.dev v with relX := addSat (s.dev v).relX dx, relY := addSat (s.dev v).relY dy }).finish .ok
    else s.reject
  | none => s.reject

/-! ## The savestate accessors -/

/-- The value GETSTATE returns: every item of 10_state.md R52. -/
def State.save (s : State) : Saved where
  bankTag := s.session.map.bankTag
  mapper := s.mapper
  pageMap := s.pageMap
  fcBase := s.session.fcBase
  fc := s.session.fc
  sramEn := s.session.sramEn
  eepEn := s.session.eepEn
  arb := s.arb
  ports := s.ports
  devices := s.devices
  keyMap := s.keyMap
  ram := s.ram
  ramDraw := s.ramDraw
  sramLen := s.session.sramLen
  sram := s.sram
  eepLen := s.session.eepLen
  eep := s.eep

/-- `sv` has fewer bytes than one of this session's save stores. -/
def Saved.short (c : Session) (sv : Saved) : Bool :=
  decide (sv.sramLen < c.sramLen) || decide (sv.eepLen < c.eepLen)

/-- Every item of R52 takes its value in `sv`; the rest of the session, the image and the windows among it, stays (R321).
`SRAM` and `EEP` have the bytes of this session's windows (10_state.md R27): a byte of `sv` past them has no place, and a
byte that `sv` does not have is a free value of a draw of its own (DESIGN CHOICE, log entry 24). -/
def State.load (s : State) (sv : Saved) : State :=
  { s with
    session := { s.session with
      map := { s.session.map with bankTag := sv.bankTag }
      fcBase := sv.fcBase
      fc := sv.fc
      sramEn := sv.sramEn
      eepEn := sv.eepEn }
    mapper := sv.mapper
    pageMap := sv.pageMap
    arb := sv.arb
    ports := sv.ports
    devices := sv.devices
    keyMap := sv.keyMap
    ram := sv.ram
    ramDraw := sv.ramDraw
    sram := sv.sram.fit (some 0xFF#8) s.session.sramLen sv.sramLen (Config.restoredSram s.draws)
    eep := sv.eep.fit (some 0xFF#8) s.session.eepLen sv.eepLen (Config.restoredEep s.draws)
    draws := if sv.short s.session then s.draws + 1 else s.draws }

/-- The range a device type allows its counter (10_state.md R41, R50 I4). -/
def counterMax : DevType → Nat
  | .none | .pad3 | .pad2 => 0
  | .pad6 | .tap => 3
  | .mouse => 9

/-- I4 to I8 of 10_state.md R50, for one record. -/
def Device.legal (d : Device) : Bool :=
  decide (d.counter.toNat ≤ counterMax d.type)
    && decide (d.scanlines.toNat ≤ if d.type = .pad6 then 24 else 0)
    && decide (d.serCtrl &&& 0x07#8 = 0#8)
    && decide (d.buttons >>> nbtn d.type = unpressed d.type >>> nbtn d.type)
    && (d.type == .mouse || (d.relX == 0#16 && d.relY == 0#16 && d.latX == 0#8 && d.latY == 0#8 && d.latFlags == 0#4))

/-- I3 of R50: a tap only on a direct port. -/
def typesLegal (ds : Vector Device 15) : Bool := decide (∀ v : Fin 15, typeAllowed v ds[v].type = true)

/-- The invariants I1 to I8 of 10_state.md R50 (I1, one tag per bank, and the type codes of I3 hold by the form of the
value). -/
def Saved.legal (sv : Saved) : Bool :=
  (sv.pageMap[0] == 0#6) && typesLegal sv.devices && decide (∀ v : Fin 15, sv.devices[v].legal = true)

/-- GETSTATE (R320). -/
def execGetstate (s : State) : Host.Outcome State Fault Refusal := s.finish (.saved s.save)

/-- SETSTATE (R321): no edge logic runs. -/
def execSetstate (sv : Saved) (s : State) : Host.Outcome State Fault Refusal :=
  if sv.legal then (s.load sv).finish .ok else s.reject

/-! ## Power-on -/

/-- The mapper state a session starts with, if its quirk parameter is supplied where it needs one (R360). -/
def PowerConfig.mapper (c : PowerConfig) : Option Mapper :=
  match c.kind with
  | .flat => some .flat
  | .banked => some .banked
  | .fixedConst => some .fixedConst
  | .quirk => c.quirk.map Mapper.quirk

/-- POWERON (70_reset_and_hazards.md R360): a new session. RAM is drawn anew, and what the environment still has to
issue and the events so far are its own. -/
def execPoweron (c : PowerConfig) (s : State) : Host.Outcome State Fault Refusal :=
  match PowerConfig.mapper c with
  | none => .refused .quirkNotSupplied
  | some m =>
    if ∀ v : Fin 15, typeAllowed v c.types[v] = true then
      .next
        { session := c.session
          mapper := m
          pageMap := pageMapPowerOn
          ram := []
          ramDraw := s.draws
          sram := c.sram
          eep := c.eep
          arb := Arbiter.powerOn
          ports := Vector.replicate 3 Port.powerOn
          devices := Vector.ofFn fun v => Device.powerOn c.types[v]
          keyMap := Vector.replicate 15 KeyRow.empty
          pending := s.pending
          result := .none
          events := s.events
          draws := s.draws + 1 }
    else .refused .illegalSession

end Sys2Proof.Machine
end

