-- ==== Sys2Proof/Machine/Mapper.lean ====
section
/-! DEFINITION. The cartridge mapper (41_cartridge_mapper.md): the save windows, address resolution under each variant,
reads and writes, the auxiliary registers and the page selectors. -/

namespace Sys2Proof.Machine

/-- `SaveSel(c)`: the store a cartridge address belongs to, the EEPROM window first (R162). -/
def Session.saveSel (x : Session) (c : Addr) : Option (Store × Nat) :=
  if x.eepEn = true ∧ x.eepStart ≤ c.toNat ∧ c.toNat ≤ x.eepEnd then some (.eep, c.toNat - x.eepStart)
  else if x.sramEn = true ∧ x.sramStart ≤ c.toNat ∧ c.toNat ≤ x.sramEnd then some (.sram, c.toNat - x.sramStart)
  else none

/-- `RomAt(o)`: the image mirrored by its length, all ones with no image (R163). -/
def romAt (r : RomImage) (o : Nat) : Byte :=
  if r.len = 0 then 0xFF#8 else r.cells.read 0x00#8 (o % r.len)

/-- `PAGES`: the image's page count (10_state.md R26). -/
def pages (r : RomImage) : Nat := (r.len + 0x7FFFF) / 0x80000

/-- The page window `w` shows: its selector's, or its own number where the selector is beyond the image (R165). -/
def effectivePage (r : RomImage) (pm : Vector (BitVec 6) 8) (w : Fin 8) : Nat :=
  if pm[w].toNat < pages r then pm[w].toNat else w.val

/-- `Resolve_BANKED` (R165). -/
def resolveBanked (r : RomImage) (pm : Vector (BitVec 6) 8) (c : Addr) : Byte :=
  if 0x400000 ≤ c.toNat then romAt r c.toNat
  else romAt r (effectivePage r pm (c.extractLsb' 19 3).toFin * 0x80000 + (c.extractLsb' 0 19).toNat)

/-- `Resolve_FIXEDCONST` (R166). -/
def resolveFixedConst (x : Session) (c : Addr) : Byte :=
  if x.fcBase ≤ c.toNat then
    match x.fc[c.toNat - x.fcBase]? with
    | some e => if e.mask then e.const else romAt x.rom c.toNat
    | none => romAt x.rom c.toNat
  else romAt x.rom c.toNat

/-- The byte a cartridge address outside the save windows resolves to (R164 to R168). With no image (`ROM_LEN = 0`) the
pseudocode of R166 and R167 still gives a masked constant and the hook's byte, while a corner case of R168 says 0xFF
everywhere outside the save windows: the model follows the pseudocode (DEDUCED, log entry 21). -/
def resolve (s : State) (c : Addr) : Byte :=
  match s.mapper with
  | .flat => romAt s.session.rom c.toNat
  | .banked => resolveBanked s.session.rom s.pageMap c
  | .fixedConst => resolveFixedConst s.session c
  | .quirk q => Config.quirkRead q.hooks q.state c

/-- `CM.ReadByte(c)` (R168). -/
def cmReadByte (s : State) (c : Addr) : Byte :=
  match Session.saveSel s.session c with
  | some (st, i) => s.storeByte st i
  | none => resolve s c

/-- `CM.WriteByte(c, v)` (R171). -/
def cmWriteByte (c : Addr) (v : Byte) (s : State) : State :=
  match Session.saveSel s.session c with
  | some (st, i) => s.setStoreByte st i v
  | none =>
    match s.mapper with
    | .quirk q => s.withMapper (.quirk { q with state := Config.quirkWrite q.hooks q.state c v })
    | .flat | .banked | .fixedConst => s

/-- `CM.AuxReadByte(i)` (R172). -/
def cmAuxReadByte (s : State) (i : Byte) : Byte :=
  match s.mapper with
  | .quirk q => Config.quirkAuxRead q.hooks q.state i
  | .flat | .banked | .fixedConst => 0xFF#8

/-- `PselWrite(i, v)`: odd indices hold the selectors, and window 0 is pinned (R176). -/
def pselWrite (i v : Byte) (s : State) : State :=
  if i.getLsbD 0 = false then s
  else if i.extractLsb' 1 3 = 0#3 then s
  else s.setPage (i.extractLsb' 1 3).toFin (v.extractLsb' 0 6)

/-- `CM.AuxWriteByte(i, v)` (R173). -/
def cmAuxWriteByte (i v : Byte) (s : State) : State :=
  match s.mapper with
  | .quirk q => s.withMapper (.quirk { q with state := Config.quirkAuxWrite q.hooks q.state i v })
  | .banked => if i.extractLsb' 4 4 = 0xF#4 then pselWrite i v s else s
  | .flat | .fixedConst => s

/-- PSEL.WR (R176). -/
def execPselWr (sz : Size) (addr : Addr) (data : Word) (s : State) : Host.Outcome State Fault Refusal :=
  (writeLanes sz addr data (fun a v t => pselWrite (auxIndex a) v t) s).finish .none

/-- AUX.RD (40_router.md R142). -/
def execAuxRd (sz : Size) (addr : Addr) (s : State) : Host.Outcome State Fault Refusal :=
  s.finish (readLanes sz addr fun a => cmAuxReadByte s (auxIndex a))

/-- AUX.WR (40_router.md R143). -/
def execAuxWr (sz : Size) (addr : Addr) (data : Word) (s : State) : Host.Outcome State Fault Refusal :=
  (writeLanes sz addr data (fun a v t => cmAuxWriteByte (auxIndex a) v t) s).finish .none

/-- ROM.RD (40_router.md R136). -/
def execRomRd (sz : Size) (region : Fin 5) (addr : Addr) (s : State) : Host.Outcome State Fault Refusal :=
  s.finish (readLanes sz addr fun a => cmReadByte s (cartAddr region a))

/-- ROM.WR (40_router.md R137). -/
def execRomWr (sz : Size) (region : Fin 5) (addr : Addr) (data : Word) (s : State) : Host.Outcome State Fault Refusal :=
  (writeLanes sz addr data (fun a v t => cmWriteByte (cartAddr region a) v t) s).finish .none

end Sys2Proof.Machine
end

