-- ==== Sys2Proof/Machine/Devices.lean ====
section
/-! DEFINITION. The controller devices (44_io_devices.md): the byte each type shows, what it does when its lines change,
the multi-tap, and the scanline tick. -/

namespace Sys2Proof.Machine

/-- The level of TH the device last received: line bit 6 (R271). -/
def Device.th (d : Device) : Bool := d.lastLines.getLsbD 6

/-- The byte that carries TH in bit 6 (R272). -/
def Device.thBit (d : Device) : Byte := if d.th then 0x40#8 else 0x00#8

/-- Button bits `lo` to `lo + n - 1`, in the low bits of a byte. -/
def Device.buttonBits (d : Device) (lo n : Nat) : Byte := (d.buttons.extractLsb' lo n).setWidth 8

/-- Buttons Start and A on bits 5 and 4 (R277, R279). -/
def Device.startA (d : Device) : Byte := d.buttonBits 6 2 <<< 4

/-- `Pad2Data` (R275). -/
def pad2Data (d : Device) : Byte := 0x80#8 ||| d.thBit ||| d.buttonBits 0 6

/-- `Pad3Data`: two rows by TH (R277). -/
def pad3Data (d : Device) : Byte :=
  if d.th then 0xC0#8 ||| d.buttonBits 0 6 else 0x80#8 ||| d.startA ||| d.buttonBits 0 2

/-- `Pad6Data`: the rows of the four phases (R279). -/
def pad6Data (d : Device) : Byte :=
  if d.th then
    if d.counter = 3#4 then 0xC0#8 ||| (d.buttonBits 4 2 <<< 4) ||| d.buttonBits 8 4 else 0xC0#8 ||| d.buttonBits 0 6
  else if d.counter = 3#4 then 0x80#8 ||| d.startA ||| 0x0F#8
  else if d.counter = 2#4 then 0x80#8 ||| d.startA
  else 0x80#8 ||| d.startA ||| d.buttonBits 0 2

/-- `nib(c)`: the nibble each mouse phase transmits (R281). -/
def mouseNibble (d : Device) : BitVec 4 :=
  match d.counter.toNat with
  | 0 => 0x0#4
  | 1 => 0xB#4
  | 2 => 0xF#4
  | 3 => 0xF#4
  | 4 => d.latFlags
  | 5 => d.buttons.extractLsb' 0 4
  | 6 => d.latX.extractLsb' 4 4
  | 7 => d.latX.extractLsb' 0 4
  | 8 => d.latY.extractLsb' 4 4
  | _ => d.latY.extractLsb' 0 4

/-- `MouseData` (R281). -/
def mouseData (d : Device) : Byte :=
  0x80#8 ||| d.thBit ||| 0x20#8 ||| (if d.counter = 0#4 then 0x10#8 else 0x00#8) ||| (mouseNibble d).setWidth 8

/-- `DevData` of a device that is not a tap (R272). A tap's own byte is never asked for: a member is never a tap
(10_state.md R50 I3), and a direct tap answers with its member. -/
def plainData (d : Device) : Byte :=
  match d.type with
  | .none => 0xFF#8
  | .pad2 => pad2Data d
  | .pad3 => pad3Data d
  | .pad6 => pad6Data d
  | .mouse => mouseData d
  | .tap => 0xFF#8

/-- The record that answers on physical port `p`: the direct device's, or the selected member's under a tap
(`Active(p)`, 10_state.md R48). -/
def active (ds : Vector Device 15) (p : Fin 3) : Fin 15 :=
  if ds[direct p].type = .tap then member p ds[direct p].counter else direct p

/-- `DevData(p)` of a physical port's direct device (R272, R285). -/
def devData (ds : Vector Device 15) (p : Fin 3) : Byte := plainData ds[active ds p]

/-- Bit `b` went from 1 to 0 (R273). -/
def fell (old new : Byte) (b : Nat) : Bool := old.getLsbD b && !new.getLsbD b

/-- Bit `b` went from 0 to 1 (R273). -/
def rose (old new : Byte) (b : Nat) : Bool := !old.getLsbD b && new.getLsbD b

/-- `Pad6Edge` (R280). -/
def pad6Edge (fall rise : Bool) (d : Device) : Device :=
  let d := if fall || rise then { d with scanlines := 0#5 } else d
  if rise then { d with counter := BitVec.ofNat 4 ((d.counter.toNat + 1) % 4) } else d

/-- `Clip` (R283): the value, and whether it overflowed. -/
def clip (r : Int) : Int × Bool :=
  if r > 255 then (255, true) else if r < -255 then (-255, true) else (r, false)

/-- `MouseSample` (R283). -/
def mouseSample (d : Device) : Device :=
  let x := clip d.relX.toInt
  let y := clip d.relY.toInt
  { d with
    latX := BitVec.ofInt 8 x.1
    latY := BitVec.ofInt 8 y.1
    latFlags := BitVec.ofBool y.2 ++ BitVec.ofBool x.2 ++ BitVec.ofBool (decide (y.1 < 0)) ++ BitVec.ofBool (decide (x.1 < 0))
    relX := 0#16
    relY := 0#16 }

/-- `MouseEdge` (R282). -/
def mouseEdge (fall rise : Bool) (d : Device) : Device :=
  if fall || rise then
    if d.counter = 0#4 then
      if fall then { mouseSample d with counter := 1#4 } else d
    else { d with counter := if d.counter = 9#4 then 0#4 else d.counter + 1#4 }
  else d

/-- `DevLines` of a device that is not a tap (R273). -/
def plainLines (new : Byte) (d : Device) : Device :=
  let fall := fell d.lastLines new 6
  let rise := rose d.lastLines new 6
  let d := { d with lastLines := new }
  match d.type with
  | .none | .pad2 | .pad3 => d
  | .pad6 => pad6Edge fall rise d
  | .mouse => mouseEdge fall rise d
  | .tap => d

/-- The selection half of `TapEdge`: TL falling selects member 0, otherwise TR falling the next (R286). -/
def tapSelect (new : Byte) (d : Device) : Device :=
  let c := if fell d.lastLines new 4 then 0#4
    else if fell d.lastLines new 5 then BitVec.ofNat 4 ((d.counter.toNat + 1) % 4)
    else d.counter
  { d with lastLines := new, counter := c }

/-- `DevLines(p, new)` of a physical port's direct device; a tap hands the lines on to the member it now selects
(R273, R286). -/
def devLines (p : Fin 3) (new : Byte) (ds : Vector Device 15) : Vector Device 15 :=
  if ds[direct p].type = .tap then
    let d := tapSelect new ds[direct p]
    let ds := ds.set (direct p) d
    ds.set (member p d.counter) (plainLines new ds[member p d.counter])
  else ds.set (direct p) (plainLines new ds[direct p])

/-- `SIXB_TIMEOUT` (R291). -/
def sixbTimeout : Nat := 25

/-- The scanline tick of one record: only a 6-button pad counts (R290). -/
def tick (d : Device) : Device :=
  if d.type = .pad6 then
    if d.scanlines.toNat + 1 = sixbTimeout then { d with counter := 0#4, scanlines := 0#5 }
    else { d with scanlines := d.scanlines + 1#5 }
  else d

/-- SCANLINE: every record ticks, selected or not (R290). It returns 0 and hands out no result (log entry 11). -/
def execScanline (s : State) : Host.Outcome State Fault Refusal :=
  (s.withDevices (Vector.ofFn fun v => tick s.devices[v])).finish .done

end Sys2Proof.Machine
end

