-- ==== Sys2Proof/Machine/Ports.lean ====
section
/-! DEFINITION. The I/O port operations and the sixteen I/O registers (43_io_ports.md). Every register sits on the LO
lane of its word; the other lane reads 0xFF and discards writes (30_encoding.md R109). -/

namespace Sys2Proof.Machine

/-- `readData(p)`: outputs show the last written value, inputs the device (R216). -/
def readData (p : Fin 3) (s : State) : Byte :=
  ((s.port p).dout &&& (s.port p).ctrl) ||| (devData s.devices p &&& ~~~(s.port p).ctrl)

/-- `Lines(p)`: a pin the console does not drive floats high (R220). -/
def Port.lines (x : Port) : Byte := (x.dout &&& x.ctrl) ||| ~~~x.ctrl

/-- `PortUpdate(p)`: hand the levels now driven to the port's direct device (R220). -/
def portUpdate (p : Fin 3) (s : State) : State := s.withDevices (devLines p (s.port p).lines s.devices)

/-- `writeData(p, v)` (R217). -/
def writeData (p : Fin 3) (v : Byte) (s : State) : State := portUpdate p (s.setPort p { s.port p with dout := v })

/-- `readCtrl(p)` (R218). -/
def readCtrl (p : Fin 3) (s : State) : Byte := (s.port p).ctrl

/-- `writeCtrl(p, v)` (R219). -/
def writeCtrl (p : Fin 3) (v : Byte) (s : State) : State := portUpdate p (s.setPort p { s.port p with ctrl := v })

/-- `readSerTx(p)` (R221). -/
def readSerTx (p : Fin 3) (s : State) : Byte := (s.dev (direct p)).serLastTx

/-- `writeSerTx(p, v)` (R222). -/
def writeSerTx (p : Fin 3) (v : Byte) (s : State) : State :=
  s.setDev (direct p) { s.dev (direct p) with serLastTx := v }

/-- `readSerRx(p)`: an idle line (R223). -/
def readSerRx (_p : Fin 3) (_s : State) : Byte := 0xFF#8

/-- `readSerCtrl(p)` (R224). -/
def readSerCtrl (p : Fin 3) (s : State) : Byte := (s.dev (direct p)).serCtrl

/-- `writeSerCtrl(p, v)`: bits 2:0 are read-only status (R230). -/
def writeSerCtrl (p : Fin 3) (v : Byte) (s : State) : State :=
  s.setDev (direct p) { s.dev (direct p) with serCtrl := v &&& 0xF8#8 }

/-- A read of a register on the LO lane. -/
def readRegister (sz : Size) (addr : Addr) (r : Byte) (s : State) : Host.Outcome State Fault Refusal :=
  s.finish (readLanes sz addr (loRegister r))

/-- A write of a register on the LO lane. -/
def writeRegister (sz : Size) (addr : Addr) (data : Word) (w : Byte → State → State) (s : State) :
    Host.Outcome State Fault Refusal :=
  (writeLanes sz addr data (toLoRegister w) s).finish .none

/-- VERSION.RD (R231). -/
def execVersionRd (sz : Size) (addr : Addr) (s : State) : Host.Outcome State Fault Refusal :=
  readRegister sz addr s.session.version s

/-- VERSION.WR (R232). -/
def execVersionWr (sz : Size) (addr : Addr) (data : Word) (s : State) : Host.Outcome State Fault Refusal :=
  writeRegister sz addr data (fun _ t => t) s

/-- DATA1.RD (R233). -/
def execData1Rd (sz : Size) (addr : Addr) (s : State) : Host.Outcome State Fault Refusal :=
  readRegister sz addr (readData 0 s) s

/-- DATA1.WR (R234). -/
def execData1Wr (sz : Size) (addr : Addr) (data : Word) (s : State) : Host.Outcome State Fault Refusal :=
  writeRegister sz addr data (writeData 0) s

/-- DATA2.RD (R235). -/
def execData2Rd (sz : Size) (addr : Addr) (s : State) : Host.Outcome State Fault Refusal :=
  readRegister sz addr (readData 1 s) s

/-- DATA2.WR (R236). -/
def execData2Wr (sz : Size) (addr : Addr) (data : Word) (s : State) : Host.Outcome State Fault Refusal :=
  writeRegister sz addr data (writeData 1) s

/-- DATA3.RD (R237). -/
def execData3Rd (sz : Size) (addr : Addr) (s : State) : Host.Outcome State Fault Refusal :=
  readRegister sz addr (readData 2 s) s

/-- DATA3.WR (R238). -/
def execData3Wr (sz : Size) (addr : Addr) (data : Word) (s : State) : Host.Outcome State Fault Refusal :=
  writeRegister sz addr data (writeData 2) s

/-- CTRL1.RD (R239). -/
def execCtrl1Rd (sz : Size) (addr : Addr) (s : State) : Host.Outcome State Fault Refusal :=
  readRegister sz addr (readCtrl 0 s) s

/-- CTRL1.WR (R240). -/
def execCtrl1Wr (sz : Size) (addr : Addr) (data : Word) (s : State) : Host.Outcome State Fault Refusal :=
  writeRegister sz addr data (writeCtrl 0) s

/-- CTRL2.RD (R241). -/
def execCtrl2Rd (sz : Size) (addr : Addr) (s : State) : Host.Outcome State Fault Refusal :=
  readRegister sz addr (readCtrl 1 s) s

/-- CTRL2.WR (R242). -/
def execCtrl2Wr (sz : Size) (addr : Addr) (data : Word) (s : State) : Host.Outcome State Fault Refusal :=
  writeRegister sz addr data (writeCtrl 1) s

/-- CTRL3.RD (R243). -/
def execCtrl3Rd (sz : Size) (addr : Addr) (s : State) : Host.Outcome State Fault Refusal :=
  readRegister sz addr (readCtrl 2 s) s

/-- CTRL3.WR (R244). -/
def execCtrl3Wr (sz : Size) (addr : Addr) (data : Word) (s : State) : Host.Outcome State Fault Refusal :=
  writeRegister sz addr data (writeCtrl 2) s

/-- TXDATA1.RD (R245). -/
def execTxdata1Rd (sz : Size) (addr : Addr) (s : State) : Host.Outcome State Fault Refusal :=
  readRegister sz addr (readSerTx 0 s) s

/-- TXDATA1.WR (R246). -/
def execTxdata1Wr (sz : Size) (addr : Addr) (data : Word) (s : State) : Host.Outcome State Fault Refusal :=
  writeRegister sz addr data (writeSerTx 0) s

/-- RXDATA1.RD (R247). -/
def execRxdata1Rd (sz : Size) (addr : Addr) (s : State) : Host.Outcome State Fault Refusal :=
  readRegister sz addr (readSerRx 0 s) s

/-- RXDATA1.WR (R248). -/
def execRxdata1Wr (sz : Size) (addr : Addr) (data : Word) (s : State) : Host.Outcome State Fault Refusal :=
  writeRegister sz addr data (fun _ t => t) s

/-- SCTRL1.RD (R249). -/
def execSctrl1Rd (sz : Size) (addr : Addr) (s : State) : Host.Outcome State Fault Refusal :=
  readRegister sz addr (readSerCtrl 0 s) s

/-- SCTRL1.WR (R250). -/
def execSctrl1Wr (sz : Size) (addr : Addr) (data : Word) (s : State) : Host.Outcome State Fault Refusal :=
  writeRegister sz addr data (writeSerCtrl 0) s

/-- TXDATA2.RD (R251). -/
def execTxdata2Rd (sz : Size) (addr : Addr) (s : State) : Host.Outcome State Fault Refusal :=
  readRegister sz addr (readSerTx 1 s) s

/-- TXDATA2.WR (R252). -/
def execTxdata2Wr (sz : Size) (addr : Addr) (data : Word) (s : State) : Host.Outcome State Fault Refusal :=
  writeRegister sz addr data (writeSerTx 1) s

/-- RXDATA2.RD (R253). -/
def execRxdata2Rd (sz : Size) (addr : Addr) (s : State) : Host.Outcome State Fault Refusal :=
  readRegister sz addr (readSerRx 1 s) s

/-- RXDATA2.WR (R254). -/
def execRxdata2Wr (sz : Size) (addr : Addr) (data : Word) (s : State) : Host.Outcome State Fault Refusal :=
  writeRegister sz addr data (fun _ t => t) s

/-- SCTRL2.RD (R255). -/
def execSctrl2Rd (sz : Size) (addr : Addr) (s : State) : Host.Outcome State Fault Refusal :=
  readRegister sz addr (readSerCtrl 1 s) s

/-- SCTRL2.WR (R256). -/
def execSctrl2Wr (sz : Size) (addr : Addr) (data : Word) (s : State) : Host.Outcome State Fault Refusal :=
  writeRegister sz addr data (writeSerCtrl 1) s

/-- TXDATA3.RD (R257). -/
def execTxdata3Rd (sz : Size) (addr : Addr) (s : State) : Host.Outcome State Fault Refusal :=
  readRegister sz addr (readSerTx 2 s) s

/-- TXDATA3.WR (R258). -/
def execTxdata3Wr (sz : Size) (addr : Addr) (data : Word) (s : State) : Host.Outcome State Fault Refusal :=
  writeRegister sz addr data (writeSerTx 2) s

/-- RXDATA3.RD (R259). -/
def execRxdata3Rd (sz : Size) (addr : Addr) (s : State) : Host.Outcome State Fault Refusal :=
  readRegister sz addr (readSerRx 2 s) s

/-- RXDATA3.WR (R260). -/
def execRxdata3Wr (sz : Size) (addr : Addr) (data : Word) (s : State) : Host.Outcome State Fault Refusal :=
  writeRegister sz addr data (fun _ t => t) s

/-- SCTRL3.RD (R261). -/
def execSctrl3Rd (sz : Size) (addr : Addr) (s : State) : Host.Outcome State Fault Refusal :=
  readRegister sz addr (readSerCtrl 2 s) s

/-- SCTRL3.WR (R262). -/
def execSctrl3Wr (sz : Size) (addr : Addr) (data : Word) (s : State) : Host.Outcome State Fault Refusal :=
  writeRegister sz addr data (writeSerCtrl 2) s

end Sys2Proof.Machine
end

