-- ==== Sys2Proof/Machine/Router.lean ====
section
/-! DEFINITION. The address-space router's own targets (40_router.md): unused banks and invalid decodes, work RAM, the
secondary CPU's window and the video facade. -/

namespace Sys2Proof.Machine

/-- UNUSED.RD (R132). -/
def execUnusedRd (sz : Size) (_addr : Addr) (s : State) : Host.Outcome State Fault Refusal := s.finish (sentinel sz)

/-- UNUSED.WR (R133). -/
def execUnusedWr (_sz : Size) (_addr : Addr) (_data : Word) (s : State) : Host.Outcome State Fault Refusal :=
  s.finish .none

/-- RAM.RD (R134). -/
def execRamRd (sz : Size) (addr : Addr) (s : State) : Host.Outcome State Fault Refusal :=
  s.finish (readLanes sz addr fun a => s.ramByte (ramIndex a))

/-- RAM.WR (R135). -/
def execRamWr (sz : Size) (addr : Addr) (data : Word) (s : State) : Host.Outcome State Fault Refusal :=
  (writeLanes sz addr data (fun a v t => t.setRamByte (ramIndex a) v) s).finish .none

/-- A read of the secondary's space: one `SecRead`, shown as `shown` says, or 0 where the window is closed
(R138, R139). -/
def secReadWith (a16 : BitVec 16) (shown : Byte → Result) (s : State) : Host.Outcome State Fault Refusal :=
  if s.arb.windowOpen then s.draw.finish (shown (Config.secRead s.draws a16)) else s.finish (shown 0x00#8)

/-- A write into the secondary's space: one `SecWrite`, discarded where the window is closed (R140, R141). -/
def secWriteWith (a16 : BitVec 16) (v : Byte) (s : State) : Host.Outcome State Fault Refusal :=
  if s.arb.windowOpen then (s.emit (.secWrite a16 v)).finish .none else s.finish .none

/-- SEC.RDB (R138). -/
def execSecRdb (addr : Addr) (s : State) : Host.Outcome State Fault Refusal :=
  secReadWith (secAddr addr) (fun b => .byte b) s

/-- SEC.RDW: one byte, from the even address, on both lanes (R139). -/
def execSecRdw (addr : Addr) (s : State) : Host.Outcome State Fault Refusal :=
  secReadWith (secAddr (align .word addr)) (fun b => .word (b ++ b)) s

/-- SEC.WRB (R140). -/
def execSecWrb (addr : Addr) (data : Word) (s : State) : Host.Outcome State Fault Refusal :=
  secWriteWith (secAddr addr) (loByte data) s

/-- SEC.WRW: the high byte only, to the even address (R141). -/
def execSecWrw (addr : Addr) (data : Word) (s : State) : Host.Outcome State Fault Refusal :=
  secWriteWith (secAddr (align .word addr)) (hiByte data) s

/-- IOINV.RD (R144). -/
def execIoinvRd (sz : Size) (_addr : Addr) (s : State) : Host.Outcome State Fault Refusal := s.finish (sentinel sz)

/-- IOINV.WR (R145). -/
def execIoinvWr (_sz : Size) (_addr : Addr) (_data : Word) (s : State) : Host.Outcome State Fault Refusal :=
  s.finish .none

/-- VID.RD: the facade's answer, whole (R146). -/
def execVidRd (sz : Size) (addr : Addr) (s : State) : Host.Outcome State Fault Refusal :=
  match sz with
  | .byte => s.draw.finish (.byte (Config.vidReadByte s.draws addr))
  | .word => s.draw.finish (.word (Config.vidReadWord s.draws (align .word addr)))

/-- VID.WR: forwarded whole (R147). -/
def execVidWr (sz : Size) (addr : Addr) (data : Word) (s : State) : Host.Outcome State Fault Refusal :=
  match sz with
  | .byte => (s.emit (.vidWriteByte addr (loByte data))).finish .none
  | .word => (s.emit (.vidWriteWord (align .word addr) data)).finish .none

/-- VIDINV.RD (R148). -/
def execVidinvRd (sz : Size) (_addr : Addr) (s : State) : Host.Outcome State Fault Refusal := s.finish (sentinel sz)

/-- VIDINV.WR (R149). -/
def execVidinvWr (_sz : Size) (_addr : Addr) (_data : Word) (s : State) : Host.Outcome State Fault Refusal :=
  s.finish .none

end Sys2Proof.Machine
end

