-- ==== Sys2Proof/Machine/Dispatch.lean ====
section
/-! DEFINITION. The dispatch: one arm per operation (40_router.md R131). -/

namespace Sys2Proof.Machine

def exec (i : Instr) (s : State) : Host.Outcome State Fault Refusal :=
  match i with
  | .pselWr sz addr data => Sys2Proof.Machine.execPselWr sz addr data s
  | .auxRd sz addr => Sys2Proof.Machine.execAuxRd sz addr s
  | .auxWr sz addr data => Sys2Proof.Machine.execAuxWr sz addr data s
  | .secRdb addr => Sys2Proof.Machine.execSecRdb addr s
  | .secRdw addr => Sys2Proof.Machine.execSecRdw addr s
  | .secWrb addr data => Sys2Proof.Machine.execSecWrb addr data s
  | .secWrw addr data => Sys2Proof.Machine.execSecWrw addr data s
  | .versionRd sz addr => Sys2Proof.Machine.execVersionRd sz addr s
  | .versionWr sz addr data => Sys2Proof.Machine.execVersionWr sz addr data s
  | .data1Rd sz addr => Sys2Proof.Machine.execData1Rd sz addr s
  | .data1Wr sz addr data => Sys2Proof.Machine.execData1Wr sz addr data s
  | .data2Rd sz addr => Sys2Proof.Machine.execData2Rd sz addr s
  | .data2Wr sz addr data => Sys2Proof.Machine.execData2Wr sz addr data s
  | .data3Rd sz addr => Sys2Proof.Machine.execData3Rd sz addr s
  | .data3Wr sz addr data => Sys2Proof.Machine.execData3Wr sz addr data s
  | .ctrl1Rd sz addr => Sys2Proof.Machine.execCtrl1Rd sz addr s
  | .ctrl1Wr sz addr data => Sys2Proof.Machine.execCtrl1Wr sz addr data s
  | .ctrl2Rd sz addr => Sys2Proof.Machine.execCtrl2Rd sz addr s
  | .ctrl2Wr sz addr data => Sys2Proof.Machine.execCtrl2Wr sz addr data s
  | .ctrl3Rd sz addr => Sys2Proof.Machine.execCtrl3Rd sz addr s
  | .ctrl3Wr sz addr data => Sys2Proof.Machine.execCtrl3Wr sz addr data s
  | .txdata1Rd sz addr => Sys2Proof.Machine.execTxdata1Rd sz addr s
  | .txdata1Wr sz addr data => Sys2Proof.Machine.execTxdata1Wr sz addr data s
  | .rxdata1Rd sz addr => Sys2Proof.Machine.execRxdata1Rd sz addr s
  | .rxdata1Wr sz addr data => Sys2Proof.Machine.execRxdata1Wr sz addr data s
  | .sctrl1Rd sz addr => Sys2Proof.Machine.execSctrl1Rd sz addr s
  | .sctrl1Wr sz addr data => Sys2Proof.Machine.execSctrl1Wr sz addr data s
  | .txdata2Rd sz addr => Sys2Proof.Machine.execTxdata2Rd sz addr s
  | .txdata2Wr sz addr data => Sys2Proof.Machine.execTxdata2Wr sz addr data s
  | .rxdata2Rd sz addr => Sys2Proof.Machine.execRxdata2Rd sz addr s
  | .rxdata2Wr sz addr data => Sys2Proof.Machine.execRxdata2Wr sz addr data s
  | .sctrl2Rd sz addr => Sys2Proof.Machine.execSctrl2Rd sz addr s
  | .sctrl2Wr sz addr data => Sys2Proof.Machine.execSctrl2Wr sz addr data s
  | .txdata3Rd sz addr => Sys2Proof.Machine.execTxdata3Rd sz addr s
  | .txdata3Wr sz addr data => Sys2Proof.Machine.execTxdata3Wr sz addr data s
  | .rxdata3Rd sz addr => Sys2Proof.Machine.execRxdata3Rd sz addr s
  | .rxdata3Wr sz addr data => Sys2Proof.Machine.execRxdata3Wr sz addr data s
  | .sctrl3Rd sz addr => Sys2Proof.Machine.execSctrl3Rd sz addr s
  | .sctrl3Wr sz addr data => Sys2Proof.Machine.execSctrl3Wr sz addr data s
  | .busreqRd sz addr clk => Sys2Proof.Machine.execBusreqRd sz addr clk s
  | .busreqWr sz addr data clk => Sys2Proof.Machine.execBusreqWr sz addr data clk s
  | .sresetRd sz addr => Sys2Proof.Machine.execSresetRd sz addr s
  | .sresetWr sz addr data => Sys2Proof.Machine.execSresetWr sz addr data s
  | .ioinvRd sz addr => Sys2Proof.Machine.execIoinvRd sz addr s
  | .ioinvWr sz addr data => Sys2Proof.Machine.execIoinvWr sz addr data s
  | .vidRd sz addr => Sys2Proof.Machine.execVidRd sz addr s
  | .vidWr sz addr data => Sys2Proof.Machine.execVidWr sz addr data s
  | .vidinvRd sz addr => Sys2Proof.Machine.execVidinvRd sz addr s
  | .vidinvWr sz addr data => Sys2Proof.Machine.execVidinvWr sz addr data s
  | .romRd sz region addr => Sys2Proof.Machine.execRomRd sz region addr s
  | .romWr sz region addr data => Sys2Proof.Machine.execRomWr sz region addr data s
  | .unusedRd sz addr => Sys2Proof.Machine.execUnusedRd sz addr s
  | .unusedWr sz addr data => Sys2Proof.Machine.execUnusedWr sz addr data s
  | .ramRd sz addr => Sys2Proof.Machine.execRamRd sz addr s
  | .ramWr sz addr data => Sys2Proof.Machine.execRamWr sz addr data s
  | .poweron config => Sys2Proof.Machine.execPoweron config s
  | .scanline => Sys2Proof.Machine.execScanline s
  | .settype v t => Sys2Proof.Machine.execSettype v t s
  | .setkeymap v keys => Sys2Proof.Machine.execSetkeymap v keys s
  | .keydown code => Sys2Proof.Machine.execKeydown code s
  | .keyup code => Sys2Proof.Machine.execKeyup code s
  | .mousemove v dx dy => Sys2Proof.Machine.execMousemove v dx dy s
  | .getstate => Sys2Proof.Machine.execGetstate s
  | .setstate sv => Sys2Proof.Machine.execSetstate sv s

end Sys2Proof.Machine
end

