-- ==== Sys2Proof/Machine/Step.lean ====
section
/-! DEFINITION. One step: the oldest operation the agents have issued is decoded and performed whole (20_memory.md R78,
R85). With nothing issued CORE stands still (10_state.md R22: it has no program counter). -/

namespace Sys2Proof.Machine

/-- One step. -/
def step (s : State) : Host.Outcome State Fault Refusal :=
  match s.fetch with
  | none => .next s
  | some (r, t) =>
    match decode s.session.map s.mapper.kind r with
    | .invalid e => .refused (.invalidOperation e)
    | .ok i => exec i t

/-- The state in which the operation spelled by a word, its operands zeros, has been issued before all others. -/
def State.withFetchWord (s : State) (nbits w : Nat) : State :=
  s.withPending (requestOfWord nbits w :: s.pending)

end Sys2Proof.Machine
end

