-- ==== Sys2Proof/Safety.lean ====
section
/-! DEFINITION. What claims are stated in: the invariant of reachable states (10_state.md R50), and the operations by
the agent that issues them (60_exceptions.md R341, R342). -/

namespace Sys2Proof

open Machine

/-- Every reachable state is legal: I1 to I8 of 10_state.md R50, and the image and every store in their canonical form. -/
def Machine.State.legal (s : State) : Bool :=
  s.save.legal && s.session.wf && s.save.wf

/-- The operations of the environment; every other operation is a bus transaction of the primary CPU (10_state.md R20,
45_host_ops.md R310). -/
def Instr.isCall : Instr → Bool
  | .poweron .. | .scanline | .settype .. | .setkeymap .. | .keydown .. | .keyup .. | .mousemove .. | .getstate
  | .setstate .. => true
  | .pselWr .. | .auxRd .. | .auxWr .. | .secRdb .. | .secRdw .. | .secWrb .. | .secWrw .. | .versionRd .. |
    .versionWr .. | .data1Rd .. | .data1Wr .. | .data2Rd .. | .data2Wr .. | .data3Rd .. | .data3Wr .. | .ctrl1Rd .. |
    .ctrl1Wr .. | .ctrl2Rd .. | .ctrl2Wr .. | .ctrl3Rd .. | .ctrl3Wr .. | .txdata1Rd .. | .txdata1Wr .. | .rxdata1Rd
    .. | .rxdata1Wr .. | .sctrl1Rd .. | .sctrl1Wr .. | .txdata2Rd .. | .txdata2Wr .. | .rxdata2Rd .. | .rxdata2Wr .. |
    .sctrl2Rd .. | .sctrl2Wr .. | .txdata3Rd .. | .txdata3Wr .. | .rxdata3Rd .. | .rxdata3Wr .. | .sctrl3Rd .. |
    .sctrl3Wr .. | .busreqRd .. | .busreqWr .. | .sresetRd .. | .sresetWr .. | .ioinvRd .. | .ioinvWr .. | .vidRd .. |
    .vidWr .. | .vidinvRd .. | .vidinvWr .. | .romRd .. | .romWr .. | .unusedRd .. | .unusedWr .. | .ramRd .. | .ramWr
    .. => false

/-- The bus reads. -/
def Instr.isRead : Instr → Bool
  | .auxRd .. | .secRdb .. | .secRdw .. | .versionRd .. | .data1Rd .. | .data2Rd .. | .data3Rd .. | .ctrl1Rd .. |
    .ctrl2Rd .. | .ctrl3Rd .. | .txdata1Rd .. | .rxdata1Rd .. | .sctrl1Rd .. | .txdata2Rd .. | .rxdata2Rd .. |
    .sctrl2Rd .. | .txdata3Rd .. | .rxdata3Rd .. | .sctrl3Rd .. | .busreqRd .. | .sresetRd .. | .ioinvRd .. | .vidRd
    .. | .vidinvRd .. | .romRd .. | .unusedRd .. | .ramRd .. => true
  | .pselWr .. | .auxWr .. | .secWrb .. | .secWrw .. | .versionWr .. | .data1Wr .. | .data2Wr .. | .data3Wr .. |
    .ctrl1Wr .. | .ctrl2Wr .. | .ctrl3Wr .. | .txdata1Wr .. | .rxdata1Wr .. | .sctrl1Wr .. | .txdata2Wr .. |
    .rxdata2Wr .. | .sctrl2Wr .. | .txdata3Wr .. | .rxdata3Wr .. | .sctrl3Wr .. | .busreqWr .. | .sresetWr .. |
    .ioinvWr .. | .vidWr .. | .vidinvWr .. | .romWr .. | .unusedWr .. | .ramWr .. | .poweron .. | .scanline | .settype
    .. | .setkeymap .. | .keydown .. | .keyup .. | .mousemove .. | .getstate | .setstate .. => false

/-- The access size of a bus transaction. -/
def Instr.size : Instr → Option Size
  | .pselWr sz .. => some sz
  | .auxRd sz .. => some sz
  | .auxWr sz .. => some sz
  | .secRdb .. => some .byte
  | .secRdw .. => some .word
  | .secWrb .. => some .byte
  | .secWrw .. => some .word
  | .versionRd sz .. => some sz
  | .versionWr sz .. => some sz
  | .data1Rd sz .. => some sz
  | .data1Wr sz .. => some sz
  | .data2Rd sz .. => some sz
  | .data2Wr sz .. => some sz
  | .data3Rd sz .. => some sz
  | .data3Wr sz .. => some sz
  | .ctrl1Rd sz .. => some sz
  | .ctrl1Wr sz .. => some sz
  | .ctrl2Rd sz .. => some sz
  | .ctrl2Wr sz .. => some sz
  | .ctrl3Rd sz .. => some sz
  | .ctrl3Wr sz .. => some sz
  | .txdata1Rd sz .. => some sz
  | .txdata1Wr sz .. => some sz
  | .rxdata1Rd sz .. => some sz
  | .rxdata1Wr sz .. => some sz
  | .sctrl1Rd sz .. => some sz
  | .sctrl1Wr sz .. => some sz
  | .txdata2Rd sz .. => some sz
  | .txdata2Wr sz .. => some sz
  | .rxdata2Rd sz .. => some sz
  | .rxdata2Wr sz .. => some sz
  | .sctrl2Rd sz .. => some sz
  | .sctrl2Wr sz .. => some sz
  | .txdata3Rd sz .. => some sz
  | .txdata3Wr sz .. => some sz
  | .rxdata3Rd sz .. => some sz
  | .rxdata3Wr sz .. => some sz
  | .sctrl3Rd sz .. => some sz
  | .sctrl3Wr sz .. => some sz
  | .busreqRd sz .. => some sz
  | .busreqWr sz .. => some sz
  | .sresetRd sz .. => some sz
  | .sresetWr sz .. => some sz
  | .ioinvRd sz .. => some sz
  | .ioinvWr sz .. => some sz
  | .vidRd sz .. => some sz
  | .vidWr sz .. => some sz
  | .vidinvRd sz .. => some sz
  | .vidinvWr sz .. => some sz
  | .romRd sz .. => some sz
  | .romWr sz .. => some sz
  | .unusedRd sz .. => some sz
  | .unusedWr sz .. => some sz
  | .ramRd sz .. => some sz
  | .ramWr sz .. => some sz
  | .poweron .. | .scanline | .settype .. | .setkeymap .. | .keydown .. | .keyup .. | .mousemove .. | .getstate |
    .setstate .. => none

/-- A result is a value of the access width (30_encoding.md R101, 40_router.md R130). -/
def Machine.Result.hasSize : Result → Size → Bool
  | .byte _, .byte => true
  | .word _, .word => true
  | _, _ => false

/-! ## Words for claims -/

/-- Perform operations one after another, stopping at the first that does not complete (20_memory.md R85). -/
def Machine.performAll : List Instr → State → Host.Outcome State Fault Refusal
  | [], s => .next s
  | i :: is, s =>
    match exec i s with
    | .next t => Machine.performAll is t
    | .fault r => .fault r
    | .refused r => .refused r

/-- The access reaches the LO lane: a word, or a byte at an odd address (R71). -/
def reachesLo (sz : Size) (a : Addr) : Bool := sz == .word || decide (a.toNat % 2 = 1)

/-- The access reaches the HI lane: a word, or a byte at an even address (R71). -/
def reachesHi (sz : Size) (a : Addr) : Bool := sz == .word || decide (a.toNat % 2 = 0)

/-- The byte a write carries on the HI lane: `DATA[15:8]` of a word, `DATA[7:0]` of a byte (R103). -/
def hiData (sz : Size) (d : Word) : Byte :=
  match sz with
  | .byte => d.extractLsb' 0 8
  | .word => d.extractLsb' 8 8

/-- What a read of an 8-bit register on the LO lane shows: the register on its lane, 0xFF on the other (R109). -/
def shownLo (sz : Size) (a : Addr) (r : Byte) : Machine.Result :=
  match sz with
  | .byte => .byte (if a.toNat % 2 = 1 then r else 0xFF#8)
  | .word => .word (0xFF#8 ++ r)

/-- What a read of an 8-bit register on the HI lane shows (R109). -/
def shownHi (sz : Size) (a : Addr) (r : Byte) : Machine.Result :=
  match sz with
  | .byte => .byte (if a.toNat % 2 = 0 then r else 0xFF#8)
  | .word => .word (r ++ 0xFF#8)

/-- All ones at the access width. -/
def allOnes : Size → Machine.Result
  | .byte => .byte 0xFF#8
  | .word => .word 0xFFFF#16

/-- The even address of the word an address lies in (R75). -/
def evenAddr (a : Addr) : Addr := BitVec.ofNat 24 (a.toNat / 2 * 2)

/-- The cartridge address of region `r` and a bus address, as a number (40_router.md R136). -/
def cartNat (r : Fin 5) (a : Addr) : Nat := r.val * 0x200000 + a.toNat % 0x200000

/-- The image's byte at an offset, mirrored (41_cartridge_mapper.md R163). -/
def imageByte (r : RomImage) (o : Nat) : Byte := if r.len = 0 then 0xFF#8 else r.cells.read 0x00#8 (o % r.len)

/-- DATA1.RD to DATA3.RD, by the physical port. -/
def dataRd (p : Fin 3) : Size → Addr → Instr :=
  match p with
  | 0 => .data1Rd
  | 1 => .data2Rd
  | 2 => .data3Rd

/-- DATA1.WR to DATA3.WR, by the physical port. -/
def dataWr (p : Fin 3) : Size → Addr → Word → Instr :=
  match p with
  | 0 => .data1Wr
  | 1 => .data2Wr
  | 2 => .data3Wr

/-- CTRL1.RD to CTRL3.RD, by the physical port. -/
def ctrlRd (p : Fin 3) : Size → Addr → Instr :=
  match p with
  | 0 => .ctrl1Rd
  | 1 => .ctrl2Rd
  | 2 => .ctrl3Rd

/-- CTRL1.WR to CTRL3.WR, by the physical port. -/
def ctrlWr (p : Fin 3) : Size → Addr → Word → Instr :=
  match p with
  | 0 => .ctrl1Wr
  | 1 => .ctrl2Wr
  | 2 => .ctrl3Wr

/-- TXDATA1.RD to TXDATA3.RD, by the physical port. -/
def txRd (p : Fin 3) : Size → Addr → Instr :=
  match p with
  | 0 => .txdata1Rd
  | 1 => .txdata2Rd
  | 2 => .txdata3Rd

/-- TXDATA1.WR to TXDATA3.WR, by the physical port. -/
def txWr (p : Fin 3) : Size → Addr → Word → Instr :=
  match p with
  | 0 => .txdata1Wr
  | 1 => .txdata2Wr
  | 2 => .txdata3Wr

/-- RXDATA1.RD to RXDATA3.RD, by the physical port. -/
def rxRd (p : Fin 3) : Size → Addr → Instr :=
  match p with
  | 0 => .rxdata1Rd
  | 1 => .rxdata2Rd
  | 2 => .rxdata3Rd

/-- RXDATA1.WR to RXDATA3.WR, by the physical port. -/
def rxWr (p : Fin 3) : Size → Addr → Word → Instr :=
  match p with
  | 0 => .rxdata1Wr
  | 1 => .rxdata2Wr
  | 2 => .rxdata3Wr

/-- SCTRL1.RD to SCTRL3.RD, by the physical port. -/
def sctrlRd (p : Fin 3) : Size → Addr → Instr :=
  match p with
  | 0 => .sctrl1Rd
  | 1 => .sctrl2Rd
  | 2 => .sctrl3Rd

/-- SCTRL1.WR to SCTRL3.WR, by the physical port. -/
def sctrlWr (p : Fin 3) : Size → Addr → Word → Instr :=
  match p with
  | 0 => .sctrl1Wr
  | 1 => .sctrl2Wr
  | 2 => .sctrl3Wr

/-- The bus address of the data register of physical port `p` (30_encoding.md R107, default map), on its own lane. -/
def dataAddr (p : Fin 3) : Addr := BitVec.ofNat 24 (0xA10003 + 2 * p.val)

/-- The first `n` reads of the handshake of 44_io_devices.md R292 at physical port `p`: TH is set high before the first,
low before the second, and so on by turns. -/
def handshake (p : Fin 3) (n : Nat) : List Instr :=
  (List.range n).flatMap fun k =>
    [dataWr p .byte (dataAddr p) (if k % 2 = 0 then 0xFF#16 else 0xBF#16), dataRd p .byte (dataAddr p)]

/-- The writes that act by lanes (20_memory.md R76). -/
def laneWrites (r : Fin 5) (clk : Clk) : List (Size → Addr → Word → Instr) :=
  [.pselWr, .auxWr, .versionWr, .data1Wr, .data2Wr, .data3Wr, .ctrl1Wr, .ctrl2Wr, .ctrl3Wr, .txdata1Wr, .rxdata1Wr,
    .sctrl1Wr, .txdata2Wr, .rxdata2Wr, .sctrl2Wr, .txdata3Wr, .rxdata3Wr, .sctrl3Wr, fun sz a d => .busreqWr sz
    a d clk, .sresetWr, .ioinvWr, .vidinvWr, fun sz a d => .romWr sz r a d, .unusedWr, .ramWr]

/-- The reads that act by lanes (R76). -/
def laneReads (r : Fin 5) (clk : Clk) : List (Size → Addr → Instr) :=
  [.auxRd, .versionRd, .data1Rd, .data2Rd, .data3Rd, .ctrl1Rd, .ctrl2Rd, .ctrl3Rd, .txdata1Rd, .rxdata1Rd,
    .sctrl1Rd, .txdata2Rd, .rxdata2Rd, .sctrl2Rd, .txdata3Rd, .rxdata3Rd, .sctrl3Rd, fun sz a => .busreqRd sz a
    clk, .sresetRd, .ioinvRd, .vidinvRd, fun sz a => .romRd sz r a, .unusedRd, .ramRd]

end Sys2Proof
end

