-- ==== Sys2Proof/Certificates/Slice0/Obligations.lean ====
section
/-! DEFINITION. The statements for the provers. Unless a docstring says that a clause is the model's own choice, every
clause is what the rule it names says. Most rules of this spec carry the spec's own mark '[decision: …]', because its
source gives no number: a statement about such a rule has basis 'derived' and its docstring names the decision D<n>. The
fields `pending`, `result`, `events` and `draws`, in which the statements say what waits, what is handed out and how many
free values were drawn, are the model's (log entries 1, 8 and 10). -/

open Sys2Proof Sys2Proof.Machine

/-! ## Encoding and decode -/

/-- 30_encoding.md R100 to R104 (decision D1): every well-formed operation, at an address that selects its own target,
is decoded from its own spelling, with every operand it had ('well-formed' asks of a list of bytes the one form the model
keeps it in, log entry 6). -/
def Obligations.DecodeOfEncodeIsTheInstruction : Prop :=
  ∀ (m : BusMap) (k : MapperKind) (i : Instr),
    i.wf = true → i.placed m k = true → decode m k (encode i) = .ok i

/-- R101, R102 (decision D1): what a word decodes to spells that same word, and lies where its name says; its operands are
well formed whatever lists the request carries (the form is the model's, log entry 6). -/
def Obligations.EncodeOfDecodeIsTheWord : Prop :=
  ∀ (m : BusMap) (k : MapperKind) (r : Request) (i : Instr),
    decode m k r = .ok i → (encode i).opw = r.opw ∧ i.placed m k = true ∧ i.wf = true

/-- R105 (decisions D1, D2): under the default map the decoder answers the operation of the first row of
spec/opcode_table.json, in file order, that claims the word by mask, match and `cond`, and rejects a word no row
claims. -/
def Obligations.DecodeFollowsTheOpcodeTable : Prop :=
  ∀ (k : MapperKind) (r : Request),
    match decode BusMap.default k r with
    | .ok i => firstRow k r.opw = some i.mnemonic
    | .invalid _ => firstRow k r.opw = none

/-- R108 (decision D1): the words that spell no operation are those of class 2 to 15, those of class 0 with nonzero
`ZERO`, and those of class 1 whose call is above 8 or that set an `ARG` bit their call does not use. -/
def Obligations.DecodeRejectsExactlyTheReservedWords : Prop :=
  ∀ (m : BusMap) (k : MapperKind) (r : Request),
    (decode m k r = .invalid .reservedClass ↔ 0x20000000 ≤ r.opw.toNat) ∧
    (decode m k r = .invalid .zeroBits ↔ 0x04000000 ≤ r.opw.toNat ∧ r.opw.toNat < 0x10000000) ∧
    (decode m k r = .invalid .unknownCall ↔ 0x10900000 ≤ r.opw.toNat ∧ r.opw.toNat < 0x20000000) ∧
    (decode m k r = .invalid .strayArgument ↔
      0x10000000 ≤ r.opw.toNat ∧ r.opw.toNat < 0x10900000 ∧
        match r.opw.toNat / 0x100000 % 0x100 with
        | 2 | 3 => 0x1000 ≤ r.opw.toNat % 0x100000
        | 4 | 5 => 0x10000 ≤ r.opw.toNat % 0x100000
        | 6 => 0x1000 ≤ r.opw.toNat % 0x100000 ∨ r.opw.toNat % 0x100 ≠ 0
        | _ => r.opw.toNat % 0x100000 ≠ 0)

/-- R101, R102 and the words programs P1 to P6 of 95_test_vectors.md print: each decodes, under the default map, to the
operation, size, address and word-held operands its trace line names; the out-of-band operands are zeros here (log
entry 5). -/
def Obligations.PrintedWordsDecodeAsTraced : Prop :=
  decodeTableWord 32 0x03FF0100 = some (.ramWr .word 0xFF0100#24 0#16) ∧
  decodeTableWord 32 0x00E10101 = some (.ramRd .byte 0xE10101#24) ∧
  decodeTableWord 32 0x01800000 = some (.unusedRd .word 0x800000#24) ∧
  decodeTableWord 32 0x01080000 = some (.romRd .word 0 0x080000#24) ∧
  decodeTableWord 32 0x02A130F3 = some (.pselWr .byte 0xA130F3#24 0#16) ∧
  decodeTableWord 32 0x03A11100 = some (.busreqWr .word 0xA11100#24 0#16 ⟨0, 0, 0, 0⟩) ∧
  decodeTableWord 32 0x00A00000 = some (.secRdb 0xA00000#24) ∧
  decodeTableWord 32 0x02A10003 = some (.data1Wr .byte 0xA10003#24 0#16) ∧
  decodeTableWord 32 0x01C10000 = some (.vidinvRd .word 0xC10000#24) ∧
  decodeTableWord 32 0x10200002 = some (.settype 0#4 2#8) ∧
  decodeTableWord 32 0x10400058 = some (.keydown 0x58#16)

/-- 20_memory.md R85 and 30_encoding.md R108. The queue of waiting operations is the model's (log entry 1), as is the
stillness with nothing waiting (log entry 2): the oldest waiting operation is decoded, taken off the queue, and performed
by `exec`; a word that spells no operation is refused. -/
def Obligations.StepPerformsTheOldestWaitingOperation : Prop :=
  ∀ (s : State) (r : Request) (rest : List Request),
    (s.pending = [] → step s = .next s) ∧
    (∀ i, s.pending = r :: rest → decode s.session.map s.mapper.kind r = .ok i →
      step s = exec i (s.withPending rest)) ∧
    (∀ e, s.pending = r :: rest → decode s.session.map s.mapper.kind r = .invalid e →
      step s = .refused (.invalidOperation e))

/-! ## The invariant, and that everything completes -/

/-- 10_state.md R50, R51: the power-on state satisfies the invariants, its image and stores are in their one form (the
model's, log entries 6 and 14), and its session has the values log entry 3 gives where R6 gives none. -/
def Obligations.ResetStateIsLegal : Prop := State.reset.legal = true

/-- R50: 'Invariants every reachable state satisfies': I1 to I8, and the image and every store in their canonical form (the
form is the model's, log entries 6 and 14). -/
def Obligations.StepKeepsTheStateLegal : Prop :=
  ∀ (s t : State), s.legal = true → step s = .next t → t.legal = true

/-- R50, I2 to I8 spelled out, is what `Saved.legal`, the check of SETSTATE, decides (I1 and the type codes of I3 hold by
the form of the value, log entry 12). -/
def Obligations.LegalSavedStateMeansI2ToI8 : Prop :=
  ∀ sv : Saved, sv.legal = true ↔
    sv.pageMap[0] = 0#6 ∧
    ∀ v : Fin 15,
      (sv.devices[v].type = .tap → v.val < 3) ∧
      (sv.devices[v].counter.toNat ≤ match sv.devices[v].type with
        | .pad6 => 3 | .mouse => 9 | .tap => 3 | .none | .pad2 | .pad3 => 0) ∧
      (sv.devices[v].scanlines.toNat ≤ 24 ∧ (sv.devices[v].type ≠ .pad6 → sv.devices[v].scanlines = 0#5)) ∧
      (∀ b, b < 3 → sv.devices[v].serCtrl.getLsbD b = false) ∧
      (∀ b, nbtn sv.devices[v].type ≤ b → b < 12 →
        sv.devices[v].buttons.getLsbD b = !decide (sv.devices[v].type = .mouse)) ∧
      (sv.devices[v].type ≠ .mouse → sv.devices[v].relX = 0#16 ∧ sv.devices[v].relY = 0#16 ∧
        sv.devices[v].latX = 0#8 ∧ sv.devices[v].latY = 0#8 ∧ sv.devices[v].latFlags = 0#4)

/-- 60_exceptions.md R330: every bus transaction completes and a read returns a value of the access width, in every
state; every environment call completes and returns. (A POWERON whose session 70_reset_and_hazards.md R360 refuses starts
no session: see `PoweronSetsTheResetValues`.) CORE has no fault state. -/
def Obligations.EveryOperationCompletes : Prop :=
  ∀ (i : Instr) (s : State),
    (i.isCall = false → ∃ t, exec i s = .next t ∧
      (i.isRead = true → ∃ sz, i.size = some sz ∧ t.result.hasSize sz = true) ∧
      (i.isRead = false → t.result = .none)) ∧
    (i.isCall = true →
      (∀ c, i = .poweron c → (c.kind = .quirk → c.quirk ≠ none) ∧ ∀ v : Fin 15, c.types[v] = .tap → v.val ≤ 2) →
        ∃ t, exec i s = .next t) ∧
    (∀ f, exec i s ≠ .fault f)

/-! ## Unused banks and invalid decodes -/

/-- 40_router.md R132, R148, and IOINV.RD of R144: all ones at the access width, whatever the address and the state. -/
def Obligations.UnclaimedReadsAreAllOnes : Prop :=
  ∀ (s : State) (sz : Size) (a : Addr),
    exec (.unusedRd sz a) s = .next { s with result := allOnes sz } ∧
    exec (.vidinvRd sz a) s = .next { s with result := allOnes sz } ∧
    exec (.ioinvRd sz a) s = .next { s with result := allOnes sz }

/-- R133, R145, R149: a write to an unused bank or an invalid decode changes no state and makes no event. -/
def Obligations.UnclaimedWritesChangeNothing : Prop :=
  ∀ (s : State) (sz : Size) (a : Addr) (d : Word),
    exec (.unusedWr sz a d) s = .next { s with result := .none } ∧
    exec (.ioinvWr sz a d) s = .next { s with result := .none } ∧
    exec (.vidinvWr sz a d) s = .next { s with result := .none }

/-! ## Lanes -/

/-- 20_memory.md R76 (decision D12): a word write is the byte write of the high byte at the even address followed by the
byte write of the low byte at the next, for every target that acts by lanes. -/
def Obligations.WordWriteIsTwoByteWrites : Prop :=
  ∀ (r : Fin 5) (clk : Clk), ∀ f ∈ laneWrites r clk, ∀ (s : State) (a : Addr) (d : Word),
    (∃ t, exec (f .word a d) s = .next t) ∧
    exec (f .word a d) s =
      performAll [f .byte (evenAddr a) ((d.extractLsb' 8 8).setWidth 16),
        f .byte (evenAddr a + 1#24) ((d.extractLsb' 0 8).setWidth 16)] s

/-- R76 (decision D12): a word read is the byte at the even address in the high half and the byte at the next in the low
half, for every target that acts by lanes, and none of these reads changes anything but the result. -/
def Obligations.WordReadIsTwoByteReads : Prop :=
  ∀ (r : Fin 5) (clk : Clk), ∀ f ∈ laneReads r clk, ∀ (s : State) (a : Addr), ∃ h l : Byte,
    exec (f .byte (evenAddr a)) s = .next { s with result := .byte h } ∧
    exec (f .byte (evenAddr a + 1#24)) s = .next { s with result := .byte l } ∧
    exec (f .word a) s = .next { s with result := .word (h ++ l) }

/-! ## Work RAM -/

/-- 40_router.md R134: the byte at index `ADDR[15:0]`, or the two bytes of the even index, big-endian; a byte never
written since power-on reads the free value of this power-on (U1 as the model reads it, log entry 7). -/
def Obligations.RamReadReturnsTheIndexedBytes : Prop :=
  ∀ (s : State) (a : Addr),
    exec (.ramRd .byte a) s = .next { s with result := .byte (s.ramByte (a.toNat % 0x10000)) } ∧
    exec (.ramRd .word a) s = .next { s with
      result := .word (s.ramByte (a.toNat % 0x10000 / 2 * 2) ++ s.ramByte (a.toNat % 0x10000 / 2 * 2 + 1)) } ∧
    (s.ram.find (a.toNat % 0x10000) = none → exec (.ramRd .byte a) s = .next { s with
      result := .byte (Config.ramPowerOn s.ramDraw (a.toNat % 0x10000)) })

/-- R135: the indexed byte or bytes take the value, every other byte of RAM and every other field keeps its own. -/
def Obligations.RamWriteStoresTheIndexedBytes : Prop :=
  ∀ (s : State) (sz : Size) (a : Addr) (d : Word), ∃ t,
    exec (.ramWr sz a d) s = .next t ∧
    t = { s with ram := t.ram, result := .none } ∧
    ∀ i, t.ramByte i =
      match sz with
      | .byte => if i = a.toNat % 0x10000 then d.extractLsb' 0 8 else s.ramByte i
      | .word =>
        if i = a.toNat % 0x10000 / 2 * 2 then d.extractLsb' 8 8
        else if i = a.toNat % 0x10000 / 2 * 2 + 1 then d.extractLsb' 0 8 else s.ramByte i

/-! ## The cartridge -/

/-- 40_router.md R136 (decision D3): a ROM read asks the mapper at the cartridge address `region * 0x200000 + offset`,
by lanes. -/
def Obligations.RomReadAsksTheMapperAtTheCartridgeAddress : Prop :=
  ∀ (s : State) (r : Fin 5) (a : Addr),
    exec (.romRd .byte r a) s = .next { s with result := .byte (cmReadByte s (BitVec.ofNat 24 (cartNat r a))) } ∧
    exec (.romRd .word r a) s = .next { s with
      result := .word (cmReadByte s (BitVec.ofNat 24 (cartNat r a / 2 * 2))
        ++ cmReadByte s (BitVec.ofNat 24 (cartNat r a / 2 * 2 + 1))) }

/-- 41_cartridge_mapper.md R162 to R168 (decisions D13, D14, D15, D16, D17): an enabled EEPROM window comes first, then an
enabled battery-RAM window, then the variant's resolution: the mirrored image under FLAT, the effective page of the window
under BANKED (D14), the masked constants over the image under FIXEDCONST, the hook under QUIRK. With no image
(`ROM_LEN = 0`) a masked constant and the hook still answer, as the pseudocode has it: the model's reading against a
corner case of R168 (log entry 21). The form of the hook, a constant applied to a number and a list of bytes, is the
model's too (log entry 9). -/
def Obligations.CartridgeReadFollowsThePriority : Prop :=
  ∀ (s : State) (c : Addr),
    cmReadByte s c =
      if s.session.eepEn ∧ s.session.eepStart ≤ c.toNat ∧ c.toNat ≤ s.session.eepEnd then
        s.eep.read 0xFF#8 (c.toNat - s.session.eepStart)
      else if s.session.sramEn ∧ s.session.sramStart ≤ c.toNat ∧ c.toNat ≤ s.session.sramEnd then
        s.sram.read 0xFF#8 (c.toNat - s.session.sramStart)
      else
        match s.mapper with
        | .flat => imageByte s.session.rom c.toNat
        | .banked =>
          if h : c.toNat / 0x80000 < 8 then
            imageByte s.session.rom
              ((if (s.page ⟨c.toNat / 0x80000, h⟩).toNat * 0x80000 < s.session.rom.len
                then (s.page ⟨c.toNat / 0x80000, h⟩).toNat else c.toNat / 0x80000) * 0x80000 + c.toNat % 0x80000)
          else imageByte s.session.rom c.toNat
        | .fixedConst =>
          if h : s.session.fcBase ≤ c.toNat ∧ c.toNat - s.session.fcBase < s.session.fc.length then
            if s.session.fc[c.toNat - s.session.fcBase].mask then s.session.fc[c.toNat - s.session.fcBase].const
            else imageByte s.session.rom c.toNat
          else imageByte s.session.rom c.toNat
        | .quirk q => Config.quirkRead q.hooks q.state c

/-- 60_exceptions.md R335: under BANKED, while the selector of window `w` is at or beyond the page count, the window
reads the page whose number is the window number, mirrored where that page too is beyond the image; the selector keeps
the raw value. (An address an enabled save window takes reads its store instead, R337.) The cartridge address is R136's
(decision D3), the mirroring R163's and R332's (decision D13), the save windows' precedence R162's (decision D17). The
byte form; `WordReadIsTwoByteReads` gives the word. -/
def Obligations.SelectorBeyondTheImageReadsIdentity : Prop :=
  ∀ (s : State) (r : Fin 5) (a : Addr) (w : Fin 8),
    s.mapper = .banked → Session.saveSel s.session (BitVec.ofNat 24 (cartNat r a)) = none →
      cartNat r a / 0x80000 = w.val →
      (s.session.rom.len + 0x7FFFF) / 0x80000 ≤ (s.page w).toNat →
        exec (.romRd .byte r a) s = .next { s with result := .byte (imageByte s.session.rom (cartNat r a)) } ∧
        exec (.romRd .byte r a) s =
          (match exec (.romRd .byte r a) (s.setPage w (BitVec.ofNat 6 w.val)) with
            | .next t => .next { s with result := t.result }
            | o => o)

/-- 41_cartridge_mapper.md R176, R178 (decision D14): the selector write: window `k = ADDR[3:1]` takes the low six bits of
the byte on the LO lane, window 0 is pinned, and nothing else changes. -/
def Obligations.SelectorWriteSetsOneUnpinnedWindow : Prop :=
  ∀ (s : State) (sz : Size) (a : Addr) (d : Word), ∃ t,
    exec (.pselWr sz a d) s = .next t ∧
    t = { s with pageMap := t.pageMap, result := .none } ∧
    ∀ w : Fin 8, t.page w =
      if w.val ≠ 0 ∧ w.val = a.toNat / 2 % 8 ∧ reachesLo sz a = true then d.extractLsb' 0 6 else s.page w

/-- R171 with R162 (decision D17) and R169, at the cartridge address of R136 (decision D3): a byte written into an enabled
save window is stored at its index, is what that cartridge address reads next, and no other stored byte and no other
cartridge address reads otherwise; a byte written anywhere else changes nothing, but for a QUIRK cartridge, whose hook
takes it (decision D16; its form is log entry 9's). The byte form; `WordWriteIsTwoByteWrites` gives the word. -/
def Obligations.CartridgeWriteReachesOnlySaveMemory : Prop :=
  ∀ (s : State) (r : Fin 5) (a : Addr) (d : Word), ∃ t,
    exec (.romWr .byte r a d) s = .next t ∧
    (Session.saveSel s.session (BitVec.ofNat 24 (cartNat r a)) = none →
      t = { s with
        result := .none
        mapper := match s.mapper with
          | .quirk q => .quirk { q with
              state := Config.quirkWrite q.hooks q.state (BitVec.ofNat 24 (cartNat r a)) (d.extractLsb' 0 8) }
          | m => m }) ∧
    (∀ st i, Session.saveSel s.session (BitVec.ofNat 24 (cartNat r a)) = some (st, i) →
      t = { s with sram := t.sram, eep := t.eep, result := .none } ∧
      (∀ st' j, t.storeByte st' j = if st' = st ∧ j = i then d.extractLsb' 0 8 else s.storeByte st' j) ∧
      ∀ c : Addr, cmReadByte t c =
        if c.toNat = cartNat r a then d.extractLsb' 0 8 else cmReadByte s c)

/-- 40_router.md R142, R143 and 41_cartridge_mapper.md R172, R173 (decisions D17, D18): FLAT, BANKED and FIXEDCONST
cartridges read all ones in the auxiliary window and ignore writes there, below the selectors; a QUIRK cartridge's hooks
answer (decision D16; the form of the hooks, constants applied to a number and a list of bytes, is log entry 9's). Byte
form; the word form is two byte forms. -/
def Obligations.AuxiliaryWindowBelongsToTheMapper : Prop :=
  ∀ (s : State) (sz : Size) (a : Addr) (d : Word),
    (s.mapper.kind ≠ .quirk → exec (.auxRd sz a) s = .next { s with result := allOnes sz }) ∧
    (s.mapper.kind ≠ .quirk → (s.mapper.kind = .banked → a.toNat / 16 % 16 ≠ 15) →
      exec (.auxWr sz a d) s = .next { s with result := .none }) ∧
    (∀ q, s.mapper = .quirk q →
      exec (.auxRd .byte a) s = .next { s with
        result := .byte (Config.quirkAuxRead q.hooks q.state (BitVec.ofNat 8 (a.toNat % 256))) } ∧
      exec (.auxWr .byte a d) s = .next { s with
        result := .none
        mapper := .quirk { q with
          state := Config.quirkAuxWrite q.hooks q.state (BitVec.ofNat 8 (a.toNat % 256)) (d.extractLsb' 0 8) } })

/-! ## The secondary CPU's window and the video facade -/

/-- 40_router.md R138, R140: a byte access reaches the secondary's space at `offset[15:0]` only while the request is held
and reset is not; otherwise it reads 0 without a `SecRead`, or is discarded. What a `SecRead` answers is a free value (R14,
decision D19), numbered by a draw (log entry 8). -/
def Obligations.SecondaryByteAccessNeedsTheOpenWindow : Prop :=
  ∀ (s : State) (a : Addr) (d : Word),
    exec (.secRdb a) s =
      (if s.arb.req = true ∧ s.arb.rst = false then
        .next { s with
          result := .byte (Config.secRead s.draws (BitVec.ofNat 16 (a.toNat % 0x10000))), draws := s.draws + 1 }
      else .next { s with result := .byte 0x00#8 }) ∧
    exec (.secWrb a d) s =
      (if s.arb.req = true ∧ s.arb.rst = false then
        .next { s with
          result := .none
          events := s.events ++ [.secWrite (BitVec.ofNat 16 (a.toNat % 0x10000)) (d.extractLsb' 0 8)] }
      else .next { s with result := .none })

/-- R139, R141 (decision D6): a word access moves one byte, at the even address: a read shows it on both lanes, a write
takes the high byte. What a `SecRead` answers is a free value (R14, decision D19), numbered by a draw (log entry 8). -/
def Obligations.SecondaryWordAccessMovesOneByte : Prop :=
  ∀ (s : State) (a : Addr) (d : Word),
    exec (.secRdw a) s =
      (if s.arb.req = true ∧ s.arb.rst = false then
        .next { s with
          result := .word (Config.secRead s.draws (BitVec.ofNat 16 (a.toNat % 0x10000 / 2 * 2)) ++
            Config.secRead s.draws (BitVec.ofNat 16 (a.toNat % 0x10000 / 2 * 2)))
          draws := s.draws + 1 }
      else .next { s with result := .word 0x0000#16 }) ∧
    exec (.secWrw a d) s =
      (if s.arb.req = true ∧ s.arb.rst = false then
        .next { s with
          result := .none
          events := s.events ++ [.secWrite (BitVec.ofNat 16 (a.toNat % 0x10000 / 2 * 2)) (d.extractLsb' 8 8)] }
      else .next { s with result := .none })

/-- R146, R147: a valid video access is passed on whole, at its own width, a byte at its own address and a word at the
even one; what the facade answers is a free value (R14, decision D19), numbered by a draw (log entry 8). -/
def Obligations.VideoAccessIsForwardedWhole : Prop :=
  ∀ (s : State) (a : Addr) (d : Word),
    exec (.vidRd .byte a) s = .next { s with result := .byte (Config.vidReadByte s.draws a), draws := s.draws + 1 } ∧
    exec (.vidRd .word a) s = .next { s with
      result := .word (Config.vidReadWord s.draws (evenAddr a)), draws := s.draws + 1 } ∧
    exec (.vidWr .byte a d) s = .next { s with
      result := .none, events := s.events ++ [.vidWriteByte a (d.extractLsb' 0 8)] } ∧
    exec (.vidWr .word a d) s = .next { s with
      result := .none, events := s.events ++ [.vidWriteWord (evenAddr a) d] }

/-! ## The bus arbiter -/

/-- 42_bus_arbiter.md R192, R195, R196, R204 (decisions D10, D20, D21, D22, D24): the cycle conversion is the quotient of
the ratio, 0 at 0 and monotone (with `CONV_DEN = 0` the model leaves it free within that, log entry 23); the two edges of
the request line. Bit 0 of the even byte set while the line is low stops the secondary: the cycle and its prior run-state
are recorded and, if it was running, it is advanced to the synchronised position `secTarget - conv(priTarget - priNow)`.
Bit 0 clear while the line is high resumes it: its odometer is set to that position, whatever reset does, and the stamp
stays. -/
def Obligations.BusRequestEdgesKeepTheClocksInStep : Prop :=
  (∀ (c : Session) (m n : Nat), (c.convDen ≠ 0 → Session.conv c n = n * c.convNum / c.convDen) ∧
    Session.conv c 0 = 0 ∧ (m ≤ n → Session.conv c m ≤ Session.conv c n)) ∧
  ∀ (s : State) (sz : Size) (a : Addr) (d : Word) (clk : Clk), reachesHi sz a = true →
    ((hiData sz d).getLsbD 0 = true → s.arb.req = false →
      exec (.busreqWr sz a d clk) s = .next { s with
        arb := ⟨true, s.arb.rst, clk.priNow, !s.arb.rst⟩
        events := s.events ++ (if s.arb.rst then [] else
          [.secAdvance ((clk.secTarget - Session.conv s.session (clk.priTarget - clk.priNow)) - clk.secOdo)])
        result := .none }) ∧
    ((hiData sz d).getLsbD 0 = false → s.arb.req = true →
      exec (.busreqWr sz a d clk) s = .next { s with
        arb := ⟨false, s.arb.rst, s.arb.lastReqCycle, s.arb.lastReqPrior⟩
        events := s.events ++
          [.secSetOdo (clk.secTarget - Session.conv s.session (clk.priTarget - clk.priNow))]
        result := .none })

/-- R194, R197 (decision D10 for the register): a write that leaves the request line as it is, or does not reach the even
byte, changes no state, records no stamp and emits no event; a call of the line's own operation that is no edge does
nothing, and a query changes nothing. -/
def Obligations.RequestLineActsOnEdgesOnly : Prop :=
  ∀ (s : State) (sz : Size) (a : Addr) (d : Word) (clk : Clk),
    (reachesHi sz a = false ∨ (hiData sz d).getLsbD 0 = s.arb.req →
      exec (.busreqWr sz a d clk) s = .next { s with result := .none }) ∧
    (∀ want : Bool, s.arb.req = !want → requestRelease clk want s = s) ∧
    (∃ r, exec (.busreqRd sz a clk) s = .next { s with result := r })

/-- R198, R199, R206 (decisions D10, D25): bit 0 of the even byte clear asserts reset on an edge, with the halt and the
sound reset; set, it de-asserts with no event; a non-edge and the odd byte do nothing; the request line is never
touched. -/
def Obligations.ResetLineActsOnEdgesOnly : Prop :=
  ∀ (s : State) (sz : Size) (a : Addr) (d : Word),
    exec (.sresetWr sz a d) s =
      if reachesHi sz a = true ∧ (hiData sz d).getLsbD 0 = false ∧ s.arb.rst = false then
        .next { s with
          arb := ⟨s.arb.req, true, s.arb.lastReqCycle, s.arb.lastReqPrior⟩
          events := s.events ++ [.secHalt, .soundReset]
          result := .none }
      else if reachesHi sz a = true ∧ (hiData sz d).getLsbD 0 = true ∧ s.arb.rst = true then
        .next { s with
          arb := ⟨s.arb.req, false, s.arb.lastReqCycle, s.arb.lastReqPrior⟩
          result := .none }
      else .next { s with result := .none }

/-- 42_bus_arbiter.md R200, R203, R205 (decisions D10, D23): the status byte on the even lane: bit 0 is 1 while the bus is
not requested and, inside the grace window after the stop edge, while the secondary had been running; the upper bits are
the session's. The odd lane reads 0xFF, and the read changes nothing. The reset register is write-only: all ones. -/
def Obligations.StatusByteShowsTheGraceWindow : Prop :=
  ∀ (s : State) (sz : Size) (a : Addr) (clk : Clk),
    exec (.sresetRd sz a) s = .next { s with result := allOnes sz } ∧
    (∃ r : Byte,
      exec (.busreqRd sz a clk) s = .next { s with result := shownHi sz a r } ∧
      (∀ b, 1 ≤ b → r.getLsbD b = s.session.statusHi.getLsbD (b - 1)) ∧
      (r.getLsbD 0 = true ↔
        s.arb.req = false ∨ (clk.priNow ≤ s.arb.lastReqCycle + s.session.graceCycles ∧ s.arb.lastReqPrior = true)))

/-- 10_state.md R32, R33, 42_bus_arbiter.md R207, 00_scope.md R14 and 40_router.md R140, R141, R147: only a write of an
arbiter register, a savestate and power-on move the two lines or the stamp, and only those, the SEC writes and the video
writes make an output event. -/
def Obligations.OnlyArbiterWritesMoveTheLines : Prop :=
  ∀ (i : Instr) (s t : State), exec i s = .next t →
    (∀ sz a d clk, i ≠ .busreqWr sz a d clk) → (∀ sz a d, i ≠ .sresetWr sz a d) →
      ((∀ sv, i ≠ .setstate sv) → (∀ c, i ≠ .poweron c) → t.arb = s.arb) ∧
      ((∀ a d, i ≠ .secWrb a d) → (∀ a d, i ≠ .secWrw a d) → (∀ sz a d, i ≠ .vidWr sz a d) → t.events = s.events)

/-! ## The I/O registers -/

/-- 43_io_ports.md R216 (with R233, R235, R237): bit by bit the data register shows the last written value where the
control register makes an output, and the device's byte where it makes an input; nothing changes. The
register stands on the odd lane and the even lane reads 0xFF (30_encoding.md R109, decision D12). -/
def Obligations.DataRegisterReadsByDirection : Prop :=
  ∀ (s : State) (p : Fin 3) (sz : Size) (a : Addr), ∃ r : Byte,
    exec (dataRd p sz a) s = .next { s with result := shownLo sz a r } ∧
    ∀ b, b < 8 → r.getLsbD b =
      if (s.port p).ctrl.getLsbD b then (s.port p).dout.getLsbD b else (devData s.devices p).getLsbD b

/-- 43_io_ports.md R217, R219, R220 (decision D28; with R234 to R244): a data or control write that reaches the LO lane
stores all eight bits and hands the port's direct device the levels now driven, a line that is no output floating high
(so a change of direction can move a line too); another changes nothing. -/
def Obligations.PortWritesDriveTheLines : Prop :=
  ∀ (s : State) (p : Fin 3) (sz : Size) (a : Addr) (d : Word), ∃ dl cl : Byte,
    (∀ b, b < 8 → dl.getLsbD b = if (s.port p).ctrl.getLsbD b then d.getLsbD b else true) ∧
    (∀ b, b < 8 → cl.getLsbD b = if d.getLsbD b then (s.port p).dout.getLsbD b else true) ∧
    exec (dataWr p sz a d) s =
      (if reachesLo sz a then
        .next { s with
          ports := s.ports.set p ⟨(s.port p).ctrl, d.extractLsb' 0 8⟩
          devices := devLines p dl s.devices
          result := .none }
      else .next { s with result := .none }) ∧
    exec (ctrlWr p sz a d) s =
      (if reachesLo sz a then
        .next { s with
          ports := s.ports.set p ⟨d.extractLsb' 0 8, (s.port p).dout⟩
          devices := devLines p cl s.devices
          result := .none }
      else .next { s with result := .none })

/-- R218, R221, R224 (with R239 to R261), R223 and R231 (decisions D9, D30): the other registers read what they hold, the
receive registers 0xFF, the version register the session's parameter; nothing changes. -/
def Obligations.PlainRegistersReadWhatTheyHold : Prop :=
  ∀ (s : State) (p : Fin 3) (sz : Size) (a : Addr),
    exec (ctrlRd p sz a) s = .next { s with result := shownLo sz a (s.port p).ctrl } ∧
    exec (txRd p sz a) s = .next { s with result := shownLo sz a (s.dev (direct p)).serLastTx } ∧
    exec (sctrlRd p sz a) s = .next { s with result := shownLo sz a (s.dev (direct p)).serCtrl } ∧
    exec (rxRd p sz a) s = .next { s with result := shownLo sz a 0xFF#8 } ∧
    exec (.versionRd sz a) s = .next { s with result := shownLo sz a s.session.version }

/-- R222, R230 (decision D30), R232, R248: a serial write that reaches the LO lane changes its own field of the direct
device's record and nothing else, the control byte without its bits 2:0; VERSION and RXDATA writes are discarded. -/
def Obligations.SerialWritesChangeTheirOwnField : Prop :=
  ∀ (s : State) (p : Fin 3) (sz : Size) (a : Addr) (d : Word),
    (∃ t, exec (txWr p sz a d) s = .next t ∧ t = { s with devices := t.devices, result := .none } ∧
      (∀ v, v ≠ direct p → t.dev v = s.dev v) ∧
      t.dev (direct p) = { s.dev (direct p) with
        serLastTx := if reachesLo sz a then d.extractLsb' 0 8 else (s.dev (direct p)).serLastTx }) ∧
    (∃ t, exec (sctrlWr p sz a d) s = .next t ∧ t = { s with devices := t.devices, result := .none } ∧
      (∀ v, v ≠ direct p → t.dev v = s.dev v) ∧
      t.dev (direct p) = { s.dev (direct p) with serCtrl := (t.dev (direct p)).serCtrl } ∧
      ∀ b, b < 8 → (t.dev (direct p)).serCtrl.getLsbD b =
        if reachesLo sz a then decide (3 ≤ b) && d.getLsbD b else (s.dev (direct p)).serCtrl.getLsbD b) ∧
    exec (rxWr p sz a d) s = .next { s with result := .none } ∧
    exec (.versionWr sz a d) s = .next { s with result := .none }

/-! ## The controller devices -/

/-- 44_io_devices.md R273, R286: new line levels reach the direct device, which reacts as its type does (a tap selects),
and under a tap the member now selected; every other record stays, and no record's type, buttons or serial registers
change. -/
def Obligations.LinesReachOnlyTheAddressedDevices : Prop :=
  ∀ (ds : Vector Device 15) (p : Fin 3) (new : Byte) (v : Fin 15),
    (devLines p new ds)[v].type = ds[v].type ∧ (devLines p new ds)[v].buttons = ds[v].buttons ∧
    (devLines p new ds)[v].serCtrl = ds[v].serCtrl ∧ (devLines p new ds)[v].serLastTx = ds[v].serLastTx ∧
    (v = direct p ∨ v = active (devLines p new ds) p → (devLines p new ds)[v].lastLines = new) ∧
    (v ≠ direct p → v ≠ active (devLines p new ds) p → (devLines p new ds)[v] = ds[v]) ∧
    (v = direct p → ds[v].type ≠ .tap → (devLines p new ds)[v] = plainLines new ds[v])

/-- R273: 'A device that receives the same byte twice sees no edge', whatever the device. -/
def Obligations.SameLinesTwiceIsNoEdge : Prop :=
  ∀ (ds : Vector Device 15) (p : Fin 3) (new : Byte), devLines p new (devLines p new ds) = devLines p new ds

/-- R276, R278 (and R274, decision D33): NONE, 2-button and 3-button devices keep the levels and do nothing more. -/
def Obligations.PlainPadsOnlyKeepTheLines : Prop :=
  ∀ (d : Device) (new : Byte), (d.type = .none ∨ d.type = .pad2 ∨ d.type = .pad3) →
    plainLines new d = { d with lastLines := new }

/-- R280 (decision D34): a 6-button pad steps its phase when TH rises, and restarts its scanline count on any TH edge. -/
def Obligations.SixButtonPadStepsOnTheRisingEdge : Prop :=
  ∀ (d : Device) (new : Byte), d.type = .pad6 → d.counter.toNat ≤ 3 → ∃ c : BitVec 4,
    plainLines new d = { d with
      lastLines := new
      counter := c
      scanlines := if d.lastLines.getLsbD 6 = new.getLsbD 6 then d.scanlines else 0#5 } ∧
    c.toNat = if d.lastLines.getLsbD 6 = false ∧ new.getLsbD 6 = true then (d.counter.toNat + 1) % 4 else d.counter.toNat

/-- R282 (decision D35): a mouse in mid-handshake steps on every TH edge, from phase 9 to idle, and touches nothing else;
idle, it starts on a falling edge only. -/
def Obligations.MouseStepsOnEveryEdge : Prop :=
  ∀ (d : Device) (new : Byte), d.type = .mouse → d.counter.toNat ≤ 9 →
    (d.lastLines.getLsbD 6 = new.getLsbD 6 → plainLines new d = { d with lastLines := new }) ∧
    (d.lastLines.getLsbD 6 ≠ new.getLsbD 6 → d.counter ≠ 0#4 →
      plainLines new d = { d with lastLines := new, counter := BitVec.ofNat 4 ((d.counter.toNat + 1) % 10) }) ∧
    (d.counter = 0#4 → d.lastLines.getLsbD 6 = false → plainLines new d = { d with lastLines := new })

/-- R283 (decision D35): the falling edge from idle samples the motion, clipped to ±255, as a 9-bit two's-complement value
with an overflow flag each, clears the accumulators and enters phase 1. -/
def Obligations.MouseSamplesItsMotionAtTheStart : Prop :=
  ∀ (d : Device) (new : Byte), d.type = .mouse → d.counter = 0#4 → d.lastLines.getLsbD 6 = true →
    new.getLsbD 6 = false → ∃ (x y : Byte) (f : BitVec 4),
      plainLines new d = { d with
        lastLines := new, counter := 1#4, relX := 0#16, relY := 0#16, latX := x, latY := y, latFlags := f } ∧
      (x.toNat : Int) - (if f.getLsbD 0 then 256 else 0) = max (-255) (min 255 d.relX.toInt) ∧
      (y.toNat : Int) - (if f.getLsbD 1 then 256 else 0) = max (-255) (min 255 d.relY.toInt) ∧
      (f.getLsbD 2 = true ↔ 255 < d.relX.toInt ∨ d.relX.toInt < -255) ∧
      (f.getLsbD 3 = true ↔ 255 < d.relY.toInt ∨ d.relY.toInt < -255)

/-- R286 (decision D36): on a tap, TL falling selects member 0, otherwise TR falling the next of four, and the levels reach
that member, which reacts to them as its own type does. -/
def Obligations.TapSelectsByTheTwoSpareLines : Prop :=
  ∀ (ds : Vector Device 15) (p : Fin 3) (new : Byte), ds[direct p].type = .tap → ds[direct p].counter.toNat ≤ 3 →
    let m : Nat :=
      if ds[direct p].lastLines.getLsbD 4 = true ∧ new.getLsbD 4 = false then 0
      else if ds[direct p].lastLines.getLsbD 5 = true ∧ new.getLsbD 5 = false then (ds[direct p].counter.toNat + 1) % 4
      else ds[direct p].counter.toNat
    ∃ v : Fin 15, v.val = 3 + 4 * p.val + m ∧ active (devLines p new ds) p = v ∧
      (devLines p new ds)[direct p] = { ds[direct p] with lastLines := new, counter := BitVec.ofNat 4 m } ∧
      (devLines p new ds)[v] = plainLines new ds[v] ∧
      devData (devLines p new ds) p = plainData (plainLines new ds[v])

/-- R274, R275, R277 (decision D33): the rows of NONE, the 2-button and the 3-button pad, bit by bit: bit 7 is 1, bit 6
echoes TH, and the buttons stand at the positions the rows give. -/
def Obligations.PadRowsShowTheButtons : Prop :=
  ∀ (d : Device) (b : Nat), b < 8 →
    (d.type = .none → (plainData d).getLsbD b = true) ∧
    (d.type = .pad2 → (plainData d).getLsbD b =
      if b = 7 then true else if b = 6 then d.lastLines.getLsbD 6 else d.buttons.getLsbD b) ∧
    (d.type = .pad3 → (plainData d).getLsbD b =
      if b = 7 then true else if b = 6 then d.lastLines.getLsbD 6
      else if d.lastLines.getLsbD 6 then d.buttons.getLsbD b
      else if b = 5 then d.buttons.getLsbD 7 else if b = 4 then d.buttons.getLsbD 6
      else if b = 3 ∨ b = 2 then false else d.buttons.getLsbD b)

/-- R279, R294 (decision D34): the rows of the 6-button pad, bit by bit; the extra nibble stands in phase 3 with TH high
only. -/
def Obligations.SixButtonRowsShowTheExtraNibbleInPhaseThree : Prop :=
  ∀ (d : Device) (b : Nat), b < 8 → d.type = .pad6 → d.counter.toNat ≤ 3 →
    (plainData d).getLsbD b =
      if b = 7 then true else if b = 6 then d.lastLines.getLsbD 6
      else if d.lastLines.getLsbD 6 then
        if d.counter = 3#4 ∧ b < 4 then d.buttons.getLsbD (8 + b) else d.buttons.getLsbD b
      else if 4 ≤ b then d.buttons.getLsbD (b + 2)
      else if d.counter = 3#4 then true else if d.counter = 2#4 then false
      else if 2 ≤ b then false else d.buttons.getLsbD b

/-- R281 (decision D35): the mouse shows TH on bit 6, 1 on bits 7 and 5, idleness on bit 4, and in its low nibble the
identification, the flags, the live buttons and the sampled motion, by phase. -/
def Obligations.MouseShowsOneNibbleAPhase : Prop :=
  ∀ d : Device, d.type = .mouse → d.counter.toNat ≤ 9 →
    (plainData d).toNat =
      0xA0 + (if d.lastLines.getLsbD 6 then 0x40 else 0) + (if d.counter = 0#4 then 0x10 else 0) +
        match d.counter.toNat with
        | 0 => 0 | 1 => 0xB | 2 => 0xF | 3 => 0xF
        | 4 => d.latFlags.toNat
        | 5 => d.buttons.toNat % 16
        | 6 => d.latX.toNat / 16
        | 7 => d.latX.toNat % 16
        | 8 => d.latY.toNat / 16
        | _ => d.latY.toNat % 16

/-- R290, R291, R294: `n` scanline ticks with no TH edge between them: a 6-button pad counts them and keeps its phase up to
the 24th, and the 25th puts it in phase 0 with the count at 0; no other type and no other field changes. What the call
hands out, status 0 and no result, is the model's reading of R290 and R102 (log entry 11). -/
def Obligations.SixButtonPadTimesOutOnThe25thTick : Prop :=
  Result.status .done = some 0 ∧
  ∀ (s : State) (n : Nat), ∃ t,
    performAll (List.replicate (n + 1) .scanline) s = .next t ∧
    t = { s with devices := t.devices, result := .done } ∧
    ∀ v : Fin 15,
      ((s.dev v).type ≠ .pad6 → t.dev v = s.dev v) ∧
      ((s.dev v).type = .pad6 → (s.dev v).scanlines.toNat + (n + 1) < 25 →
        t.dev v = { s.dev v with scanlines := BitVec.ofNat 5 ((s.dev v).scanlines.toNat + (n + 1)) }) ∧
      ((s.dev v).type = .pad6 → (s.dev v).scanlines.toNat + (n + 1) = 25 →
        t.dev v = { s.dev v with counter := 0#4, scanlines := 0#5 })

/-- R292 for the 3-button pad (decisions D33, D28, D27), at every physical port `p`, whose direct device is the record of
virtual port number `p` (10_state.md R47), with only `CTRL[p]` bit 6 an output and from any state of the pad: every read
with TH high shows buttons 0 to 5, every read with TH low shows Start and A on bits 5 and 4, zeros on bits 3 and 2, and
buttons 1 and 0. -/
def Obligations.ThreeButtonHandshakeRecoversTheButtons : Prop :=
  ∀ (s : State) (p : Fin 3) (v : Fin 15) (n : Nat), v.val = p.val → (s.dev v).type = .pad3 → (s.port p).ctrl = 0x40#8 →
    1 ≤ n → ∃ t r,
      performAll (handshake p n) s = .next t ∧ t.result = .byte r ∧ (t.dev v).buttons = (s.dev v).buttons ∧
      ∀ b, b < 8 → r.getLsbD b =
        if b = 7 then true else if b = 6 then decide (n % 2 = 1)
        else if n % 2 = 1 then (s.dev v).buttons.getLsbD b
        else if 4 ≤ b then (s.dev v).buttons.getLsbD (b + 2)
        else if 2 ≤ b then false else (s.dev v).buttons.getLsbD b

/-- R292, R294 for the 6-button pad (decisions D34, D28, D27), at every physical port `p`, whose direct device is the record
of virtual port number `p` (R47), from phase 0 with TH high and with only `CTRL[p]` bit 6 an output: each of the nine
reads, bit by bit. Reads 1 and 2 are those of the 3-button pad, and so are 3, 4, 5 and 9; read 6 has a low nibble of
zeros, read 7 shows the extra buttons in bits 3:0, read 8 has a low nibble of ones; the phase steps at reads 3, 5, 7 and 9
and is 0 again at the last. -/
def Obligations.SixButtonHandshakeRecoversTheExtraButtons : Prop :=
  ∀ (s : State) (p : Fin 3) (v : Fin 15) (n : Nat), v.val = p.val → (s.dev v).type = .pad6 →
    (s.dev v).counter = 0#4 → (s.dev v).lastLines.getLsbD 6 = true → (s.port p).ctrl = 0x40#8 →
    1 ≤ n → n ≤ 9 → ∃ t r,
      performAll (handshake p n) s = .next t ∧ t.result = .byte r ∧ (t.dev v).buttons = (s.dev v).buttons ∧
      (t.dev v).counter.toNat = (n - 1) / 2 % 4 ∧
      ∀ b, b < 8 → r.getLsbD b =
        if b = 7 then true else if b = 6 then decide (n % 2 = 1)
        else if n = 7 ∧ b < 4 then (s.dev v).buttons.getLsbD (8 + b)
        else if n % 2 = 1 then (s.dev v).buttons.getLsbD b
        else if 4 ≤ b then (s.dev v).buttons.getLsbD (b + 2)
        else if n = 8 then true else if n = 6 then false
        else if 2 ≤ b then false else (s.dev v).buttons.getLsbD b

/-! ## The environment calls -/

/-- 45_host_ops.md R311 with the type codes of 10_state.md R39 (decisions D31, D37): SETTYPE of a supported
type makes the device anew: unpressed buttons, counters and motion 0, no key, while the line levels and the serial
registers stay. -/
def Obligations.SettypeMakesTheDeviceAnew : Prop :=
  ∀ (s : State) (v : BitVec 4) (w : Fin 15) (code : Byte) (ty : DevType),
    v.toNat = w.val → (code.toNat, ty) ∈ [(0, DevType.none), (1, .pad3), (2, .pad6), (3, .pad2), (4, .mouse), (5, .tap)] →
    (ty = .tap → w.val ≤ 2) →
      exec (.settype v code) s = .next { s with
        devices := s.devices.set w
          { type := ty, buttons := if ty = .mouse then 0x000#12 else 0xFFF#12, counter := 0, scanlines := 0
            lastLines := (s.dev w).lastLines, relX := 0, relY := 0, latX := 0, latY := 0, latFlags := 0
            serCtrl := (s.dev w).serCtrl, serLastTx := (s.dev w).serLastTx }
        keyMap := s.keyMap.set w (Vector.replicate 12 0#16)
        result := .ok }

/-- 60_exceptions.md R333 (decision D44 for the value): SETTYPE with a code above 5, a virtual port above 14, or a tap on a
member port, SETKEYMAP above 14, MOUSEMOVE above 14 or on no mouse, and SETSTATE of an illegal state return -1 and change
no state. -/
def Obligations.UnsupportedCallsAreRejected : Prop :=
  Result.status .reject = some (-1) ∧
  ∀ (s : State) (v : BitVec 4) (code : Byte) (keys : List (BitVec 16)) (dx dy : BitVec 16) (sv : Saved),
    (5 < code.toNat ∨ 14 < v.toNat ∨ (code = 5#8 ∧ 2 < v.toNat) →
      exec (.settype v code) s = .next { s with result := .reject }) ∧
    (14 < v.toNat → exec (.setkeymap v keys) s = .next { s with result := .reject }) ∧
    (14 < v.toNat ∨ (∃ w : Fin 15, w.val = v.toNat ∧ (s.dev w).type ≠ .mouse) →
      exec (.mousemove v dx dy) s = .next { s with result := .reject }) ∧
    (sv.legal = false → exec (.setstate sv) s = .next { s with result := .reject })

/-- R312 with the button counts of 10_state.md R39 (decisions D32, D37): SETKEYMAP stores as many keys as the array and the
device's button count allow (8, 12, 6 and 4 for the 3-, 6- and 2-button pads and the mouse, 0 for no device and for a
tap), leaves the rest unassigned, and releases every button. -/
def Obligations.SetkeymapTruncatesAndReleases : Prop :=
  ∀ (s : State) (v : BitVec 4) (w : Fin 15) (keys : List (BitVec 16)), v.toNat = w.val → ∃ t,
    exec (.setkeymap v keys) s = .next t ∧
    t = { s with keyMap := t.keyMap, devices := t.devices, result := .ok } ∧
    (∀ u, u ≠ w → t.keys u = s.keys u ∧ t.dev u = s.dev u) ∧
    t.dev w = { s.dev w with buttons := if (s.dev w).type = .mouse then 0x000#12 else 0xFFF#12 } ∧
    ∀ i : Fin 12, (t.keys w)[i] =
      if h : i.val < keys.length then
        (if i.val < (match (s.dev w).type with | .none | .tap => 0 | .pad3 => 8 | .pad6 => 12 | .pad2 => 6 | .mouse => 4)
          then keys[i.val] else 0#16)
      else 0#16

/-- R313 to R315 (decision D37): a key event drives, on every virtual port, exactly the buttons its code is mapped to below
the device's button count: down presses (0 on a pad, 1 on a mouse), up releases; code 0 does nothing. -/
def Obligations.KeyEventsDriveTheMappedButtons : Prop :=
  ∀ (s : State) (code : BitVec 16) (down : Bool), ∃ t,
    exec (if down then .keydown code else .keyup code) s = .next t ∧
    t = { s with devices := t.devices, result := .none } ∧
    ∀ (v : Fin 15),
      t.dev v = { s.dev v with buttons := (t.dev v).buttons } ∧
      ∀ i : Fin 12, (t.dev v).buttons.getLsbD i.val =
        if code ≠ 0#16 ∧ i.val < nbtn (s.dev v).type ∧ (s.keys v)[i] = code
        then decide (down = true ↔ (s.dev v).type = .mouse) else (s.dev v).buttons.getLsbD i.val

/-- 44_io_devices.md R293: after SETTYPE, SETKEYMAP and any sequence of KEYDOWNs, the pressed buttons are exactly those
whose assigned key is among the keys pressed, for every device type and port that takes it. -/
def Obligations.PressedButtonsAreTheKeysHeld : Prop :=
  ∀ (s : State) (v : BitVec 4) (w : Fin 15) (code : Byte) (ty : DevType) (keys held : List (BitVec 16)),
    v.toNat = w.val → (code.toNat, ty) ∈ [(0, DevType.none), (1, .pad3), (2, .pad6), (3, .pad2), (4, .mouse), (5, .tap)] →
    (ty = .tap → w.val ≤ 2) → ∃ t,
      performAll (.settype v code :: .setkeymap v keys :: held.map .keydown) s = .next t ∧
      (t.dev w).type = ty ∧ (t.dev w).lastLines = (s.dev w).lastLines ∧
      ∀ i : Nat, i < 12 →
        ((t.dev w).buttons.getLsbD i = decide (ty = .mouse) ↔
          ∃ k, keys[i]? = some k ∧ i < nbtn ty ∧ k ≠ 0#16 ∧ k ∈ held)

/-- 45_host_ops.md R316 (decision D38): motion is added to a mouse's accumulators, saturating at the 16-bit ends. -/
def Obligations.MousemoveAccumulatesSaturating : Prop :=
  ∀ (s : State) (v : BitVec 4) (w : Fin 15) (dx dy : BitVec 16), v.toNat = w.val → (s.dev w).type = .mouse → ∃ t,
    exec (.mousemove v dx dy) s = .next t ∧
    t = { s with devices := t.devices, result := .ok } ∧
    (∀ u, u ≠ w → t.dev u = s.dev u) ∧
    t.dev w = { s.dev w with relX := (t.dev w).relX, relY := (t.dev w).relY } ∧
    (t.dev w).relX.toInt = max (-32768) (min 32767 ((s.dev w).relX.toInt + dx.toInt)) ∧
    (t.dev w).relY.toInt = max (-32768) (min 32767 ((s.dev w).relY.toInt + dy.toInt))

/-- R320, R321 (decision D39): GETSTATE is a pure read of every item of 10_state.md R52; SETSTATE of a legal value makes
every item what the value says and nothing else: no event, no edge, the image and the windows stay. Where the value's save
arrays are not as long as this session's stores (R27), their bytes inside the stores are taken, and a byte they do not
have is a free value of a draw (the model's choice, log entry 24). That the number of the RAM draw goes with the value is
log entry 7's. -/
def Obligations.SavestateAccessorsReadAndWriteEveryItem : Prop :=
  ∀ (s : State) (sv : Saved), (∃ cur : Saved,
      exec .getstate s = .next { s with result := .saved cur } ∧
      cur = { bankTag := s.session.map.bankTag, mapper := s.mapper, pageMap := s.pageMap, fcBase := s.session.fcBase
              fc := s.session.fc, sramEn := s.session.sramEn, eepEn := s.session.eepEn, arb := s.arb, ports := s.ports
              devices := s.devices, keyMap := s.keyMap, ram := s.ram, ramDraw := s.ramDraw
              sramLen := s.session.sramEnd + 1 - s.session.sramStart, sram := s.sram
              eepLen := s.session.eepEnd + 1 - s.session.eepStart, eep := s.eep }) ∧
    (sv.legal = true → ∃ t, exec (.setstate sv) s = .next t ∧
      exec .getstate t = .next { t with result := .saved { sv with
        sramLen := s.session.sramLen, sram := t.sram, eepLen := s.session.eepLen, eep := t.eep } } ∧
      (∀ i, i < s.session.sramLen → t.storeByte .sram i =
        if i < sv.sramLen then sv.sram.read 0xFF#8 i else Config.restoredSram s.draws i) ∧
      (∀ i, i < s.session.eepLen → t.storeByte .eep i =
        if i < sv.eepLen then sv.eep.read 0xFF#8 i else Config.restoredEep s.draws i) ∧
      (sv.wf = true → sv.sramLen = s.session.sramLen → sv.eepLen = s.session.eepLen →
        t.sram = sv.sram ∧ t.eep = sv.eep) ∧
      t.result = .ok ∧ t.events = s.events ∧ t.pending = s.pending ∧
      t.draws = (if sv.sramLen < s.session.sramLen ∨ sv.eepLen < s.session.eepLen then s.draws + 1 else s.draws) ∧
      t.session = { s.session with
        map := { s.session.map with bankTag := sv.bankTag }
        fcBase := sv.fcBase, fc := sv.fc, sramEn := sv.sramEn, eepEn := sv.eepEn })

/-- R321: 'SETSTATE(GETSTATE()) is the identity', and a saved state brings back what later operations changed: after any
completed operations but POWERON, restoring gives the saved state again, RAM's unwritten bytes among it (log entry 7). The
count of draws, the events and the queue are the model's own and go on (log entries 8 and 10). -/
def Obligations.RestoringASavestateUndoesWhatFollowed : Prop :=
  ∀ (s t : State) (is : List Instr), s.legal = true → (∀ i ∈ is, ∀ c, i ≠ .poweron c) →
    performAll is s = .next t →
      exec (.setstate s.save) t = .next { s with
        result := .ok, events := t.events, pending := t.pending, draws := t.draws }

/-- 70_reset_and_hazards.md R360, 10_state.md R51 (decisions D26, D29, D42): POWERON of a legal session sets every item to
its power-on value and emits no event; a session that breaks I3, or a QUIRK session without its parameter, is refused. That
an unwritten RAM byte is a free value of a draw is the model's reading of 'unspecified' (log entries 7 and 8), that the
prior save contents come with the operand is log entry 15's, and that the queue, the events and the count of draws
outlive POWERON is the model's choice (log entry 18). -/
def Obligations.PoweronSetsTheResetValues : Prop :=
  ∀ (s : State) (c : PowerConfig),
    (c.kind = .quirk ∧ c.quirk = none → exec (.poweron c) s = .refused .quirkNotSupplied) ∧
    (¬ (c.kind = .quirk ∧ c.quirk = none) → (∃ v : Fin 15, c.types[v] = .tap ∧ 2 < v.val) →
      exec (.poweron c) s = .refused .illegalSession) ∧
    (¬ (c.kind = .quirk ∧ c.quirk = none) → (∀ v : Fin 15, c.types[v] = .tap → v.val ≤ 2) → ∃ t,
      exec (.poweron c) s = .next t ∧
      t.session = c.session ∧ t.mapper.kind = c.kind ∧ (∀ q, t.mapper = .quirk q → c.quirk = some q) ∧
      t.sram = c.sram ∧ t.eep = c.eep ∧
      (∀ i, t.ramByte i = Config.ramPowerOn s.draws i) ∧ t.draws = s.draws + 1 ∧
      (∀ w : Fin 8, (t.page w).toNat = w.val) ∧
      t.arb = ⟨false, false, 0, false⟩ ∧
      (∀ p : Fin 3, t.port p = ⟨0x00#8, 0xFF#8⟩) ∧
      (∀ v : Fin 15, t.dev v =
        { type := c.types[v], buttons := if c.types[v] = .mouse then 0x000#12 else 0xFFF#12, counter := 0, scanlines := 0
          lastLines := 0xFF#8, relX := 0, relY := 0, latX := 0, latY := 0, latFlags := 0
          serCtrl := 0x00#8, serLastTx := 0xFF#8 }) ∧
      (∀ (v : Fin 15) (i : Fin 12), (t.keys v)[i] = 0#16) ∧
      t.events = s.events ∧ t.pending = s.pending)

/-- 10_state.md R51 with the defaults of 00_scope.md R6: the state after reset is what POWERON of the default session
leaves, up to the number of the draw, the events and what waits, which are the model's own (log entries 7, 8, 10 and 18;
the session values R6 leaves 'per session' are the model's too, log entry 3). -/
def Obligations.ResetIsPoweronOfTheDefaultSession : Prop :=
  ∀ s : State, exec (.poweron PowerConfig.default) s = .next { State.reset with
    ramDraw := s.draws, draws := s.draws + 1, events := s.events, pending := s.pending }

/-! ## Rules of the whole machine -/

/-- 60_exceptions.md R342, the table of what each agent can change. No bus transaction changes the session (tags, image,
parameters, save enables), the variant, the device types, the buttons or the key maps; no environment call but SETSTATE
and POWERON changes RAM, save memory, the selectors, the arbiter, the ports, the serial registers, the levels a device
last received, or makes an event. The rule also names the mouse accumulators, which R283 clears on a TH edge, and lets
SCANLINE and SETTYPE change the levels, which R290 and R311 leave: the model follows R283 (log entry 16), R290 and R311
(log entry 22). That RAM's unwritten bytes keep the number of their draw is log entry 7's. -/
def Obligations.EachAgentChangesOnlyItsOwnSide : Prop :=
  ∀ (i : Instr) (s t : State), exec i s = .next t →
    (i.isCall = false →
      t.session = s.session ∧ t.mapper.kind = s.mapper.kind ∧ t.keyMap = s.keyMap ∧ t.ramDraw = s.ramDraw ∧
      ∀ v, (t.dev v).type = (s.dev v).type ∧ (t.dev v).buttons = (s.dev v).buttons) ∧
    (i.isCall = true → (∀ sv, i ≠ .setstate sv) → (∀ c, i ≠ .poweron c) →
      t = { s with devices := t.devices, keyMap := t.keyMap, result := t.result } ∧
      ∀ v, (t.dev v).serCtrl = (s.dev v).serCtrl ∧ (t.dev v).serLastTx = (s.dev v).serLastTx ∧
        (t.dev v).lastLines = (s.dev v).lastLines)

/-- 20_memory.md R79: a read changes no state of CORE; only a forwarded read (SEC with the window open, VID) asks an
external collaborator, once (its answer is numbered by a draw, log entry 8). -/
def Obligations.ReadsChangeNoState : Prop :=
  ∀ (i : Instr) (s t : State), i.isRead = true → exec i s = .next t →
    t = { s with result := t.result, draws := t.draws } ∧
    ((∀ a, i ≠ .secRdb a) → (∀ a, i ≠ .secRdw a) → (∀ sz a, i ≠ .vidRd sz a) → t.draws = s.draws) ∧
    t.draws ≤ s.draws + 1

/-- 42_bus_arbiter.md R208, 44_io_devices.md R295 (decision D40): no controller record changes but by a port register write,
SCANLINE, a device call, a key event, motion, a savestate or power-on; a bus request or a reset write changes none. -/
def Obligations.OnlyPortWritesAndDeviceCallsReachTheDevices : Prop :=
  ∀ (i : Instr) (s t : State), i.isCall = false → exec i s = .next t →
    (∀ (p : Fin 3) sz a d, i ≠ dataWr p sz a d ∧ i ≠ ctrlWr p sz a d ∧ i ≠ txWr p sz a d ∧ i ≠ sctrlWr p sz a d) →
      t.devices = s.devices ∧ t.ports = s.ports
end

