-- ==== Sys2Proof/Laws/Memory.lean ====
section
/-! SUPPORT. The laws of a byte store: what is read after a write, that every operation keeps the canonical form, and
what the operands that carry stores decode to and restore. -/

namespace Sys2Proof.Machine.Memory

variable (m : Memory) (a b : Nat) (v : BitVec 8)

@[simp] theorem find_nil : find [] a = none := rfl

theorem find_insert : (m.insert a v).find b = if b = a then some v else m.find b := by
  induction m with
  | nil => simp [insert, find, eq_comm]
  | cons c m ih =>
    obtain ⟨k, w⟩ := c
    by_cases e : b = a
    · subst e
      simp only [insert, if_true] at ih ⊢
      split
      · simp [find]
      · split
        · simp [find]
        · next h => simp [find, Ne.symm h, ih]
    · simp only [insert, if_neg e] at ih ⊢
      split
      · simp [find, Ne.symm e]
      · split
        · next h => subst h; simp [find, Ne.symm e]
        · simp [find, ih]

theorem find_erase : (m.erase a).find b = if b = a then none else m.find b := by
  induction m with
  | nil => simp [erase, find]
  | cons c m ih =>
    obtain ⟨k, w⟩ := c
    by_cases e : b = a
    · subst e
      simp only [erase, if_true] at ih ⊢
      split
      · exact ih
      · next h => simp [find, h, ih]
    · simp only [erase, if_neg e] at ih ⊢
      split
      · next h => subst h; simp [find, Ne.symm e, ih]
      · simp [find, ih]

/-- Read after write, in a store whose unlisted addresses hold no byte. -/
theorem find_put_none : (m.put none a v).find b = if b = a then some v else m.find b := by
  simp [put, find_insert]

/-- Read after write, in a store whose unlisted addresses hold `fill`. -/
theorem read_put (fill : BitVec 8) : (m.put (some fill) a v).read fill b = if b = a then v else m.read fill b := by
  simp only [put, read, Option.some.injEq]
  split
  · next h => rw [find_erase]; split <;> simp [h]
  · rw [find_insert]; split <;> simp

variable {m : Memory} {skip : Option (BitVec 8)} {lim lo : Nat}

theorem wfFrom_mono {lo' : Nat} (h : lo' ≤ lo) (hm : wfFrom skip lim lo m = true) : wfFrom skip lim lo' m = true := by
  cases m with
  | nil => rfl
  | cons c m => simp only [wfFrom, Bool.and_eq_true, decide_eq_true_eq] at hm ⊢; exact ⟨⟨⟨by omega, hm.1.1.2⟩, hm.1.2⟩, hm.2⟩

theorem wfFrom_insert {a : Nat} {v : BitVec 8} (hlo : lo ≤ a) (hlim : a < lim) (hv : skip ≠ some v)
    (hm : wfFrom skip lim lo m = true) : wfFrom skip lim lo (m.insert a v) = true := by
  induction m generalizing lo with
  | nil => simp [insert, wfFrom, hlo, hlim, hv]
  | cons c m ih =>
    obtain ⟨k, w⟩ := c
    simp only [wfFrom, Bool.and_eq_true, decide_eq_true_eq] at hm
    simp only [insert]
    split
    · simp only [wfFrom, Bool.and_eq_true, decide_eq_true_eq]
      exact ⟨⟨⟨hlo, hlim⟩, hv⟩, ⟨⟨by omega, hm.1.1.2⟩, hm.1.2⟩, hm.2⟩
    · split
      · next h => subst h; simp only [wfFrom, Bool.and_eq_true, decide_eq_true_eq]; exact ⟨⟨⟨hlo, hlim⟩, hv⟩, hm.2⟩
      · simp only [wfFrom, Bool.and_eq_true, decide_eq_true_eq]
        exact ⟨hm.1, ih (by omega) hm.2⟩

theorem wfFrom_erase {a : Nat} (hm : wfFrom skip lim lo m = true) : wfFrom skip lim lo (m.erase a) = true := by
  induction m generalizing lo with
  | nil => rfl
  | cons c m ih =>
    obtain ⟨k, w⟩ := c
    simp only [wfFrom, Bool.and_eq_true, decide_eq_true_eq] at hm
    simp only [erase]
    split
    · exact wfFrom_mono (by omega) (ih hm.2)
    · simp only [wfFrom, Bool.and_eq_true, decide_eq_true_eq]; exact ⟨hm.1, ih hm.2⟩

/-- A write inside the store keeps the canonical form. -/
theorem wf_put {a : Nat} {v : BitVec 8} (hlim : a < lim) (hm : m.wf skip lim = true) :
    (m.put skip a v).wf skip lim = true := by
  simp only [put, wf] at hm ⊢
  split
  · exact wfFrom_erase hm
  · next h => exact wfFrom_insert (Nat.zero_le a) hlim h hm

/-- Whatever list of cells is given, its canonical list is canonical. -/
@[simp] theorem wf_canon (m : Memory) : (m.canon skip lim).wf skip lim = true := by
  induction m with
  | nil => rfl
  | cons c m ih =>
    simp only [canon]
    split
    · exact wf_put ‹_› ih
    · exact ih

/-- Whatever bytes are stored inside the store, the canonical form stays. -/
theorem wf_putFrom {byte : Nat → BitVec 8} {n : Nat} (hn : n = 0 ∨ lo + n ≤ lim) (hm : m.wf skip lim = true) :
    (putFrom skip byte lo n m).wf skip lim = true := by
  induction n with
  | zero => exact hm
  | succ n ih => exact wf_put (by omega) (ih (by omega))

/-- An array put into a store is in the store's canonical form, whatever its own length and list. -/
@[simp] theorem wf_fit {len : Nat} {missing : Nat → BitVec 8} (m : Memory) :
    (m.fit skip lim len missing).wf skip lim = true :=
  wf_putFrom (by omega) (wf_canon m)

theorem put_head {k : Nat} {v : BitVec 8} (hv : skip ≠ some v) (hm : wfFrom skip lim (k + 1) m = true) :
    m.put skip k v = (k, v) :: m := by
  rw [put, if_neg hv]
  cases m with
  | nil => rfl
  | cons c m =>
    simp only [wfFrom, Bool.and_eq_true, decide_eq_true_eq] at hm
    simp only [insert]
    rw [if_pos (by omega)]

theorem canon_of_wfFrom (hm : wfFrom skip lim lo m = true) : m.canon skip lim = m := by
  induction m generalizing lo with
  | nil => rfl
  | cons c m ih =>
    obtain ⟨k, v⟩ := c
    simp only [wfFrom, Bool.and_eq_true, decide_eq_true_eq] at hm
    rw [canon, if_pos hm.1.1.2, ih hm.2, put_head hm.1.2 hm.2]

/-- A list in canonical form is its own canonical list. -/
theorem canon_of_wf (hm : m.wf skip lim = true) : m.canon skip lim = m := canon_of_wfFrom hm

/-- An array of the store's own length takes its place as it is. -/
theorem fit_of_wf {missing : Nat → BitVec 8} (hm : m.wf skip lim = true) : m.fit skip lim lim missing = m := by
  rw [fit, Nat.sub_self, putFrom, canon_of_wf hm]

/-- The canonical list reads below its length as the list it is of. -/
theorem read_canon (fill : BitVec 8) (m : Memory) {a : Nat} (ha : a < lim) :
    (m.canon (some fill) lim).read fill a = m.read fill a := by
  induction m with
  | nil => rfl
  | cons c m ih =>
    obtain ⟨k, v⟩ := c
    simp only [canon]
    split
    · rw [read_put, ih]; simp only [read, find, eq_comm]; split <;> simp
    · next h => rw [ih]; simp only [read, find]; rw [if_neg (by omega)]

theorem find_canon (m : Memory) {a : Nat} (ha : a < lim) : (m.canon none lim).find a = m.find a := by
  induction m with
  | nil => rfl
  | cons c m ih =>
    obtain ⟨k, v⟩ := c
    simp only [canon]
    split
    · rw [find_put_none, ih]; simp only [find, eq_comm]
    · next h => rw [ih]; simp only [find]; rw [if_neg (by omega)]

theorem read_putFrom (fill : BitVec 8) (byte : Nat → BitVec 8) (lo n : Nat) (m : Memory) (a : Nat) :
    (putFrom (some fill) byte lo n m).read fill a = if lo ≤ a ∧ a < lo + n then byte a else m.read fill a := by
  induction n with
  | zero => rw [putFrom, if_neg (by omega)]
  | succ n ih =>
    rw [putFrom, read_put, ih]
    by_cases e : a = lo + n
    · subst e; rw [if_pos rfl, if_pos (by omega)]
    · rw [if_neg e]; exact if_congr (by omega) rfl rfl

/-- What a store reads after an array was put into it. -/
theorem read_fit (fill : BitVec 8) (missing : Nat → BitVec 8) (m : Memory) {len a : Nat} (ha : a < lim) :
    (m.fit (some fill) lim len missing).read fill a = if a < len then m.read fill a else missing a := by
  rw [fit, read_putFrom, read_canon fill m ha]
  by_cases h : a < len
  · rw [if_pos h, if_neg (by omega)]
  · rw [if_neg h, if_pos (by omega)]

/-- Nothing listed is canonical; so are the stores of the reset state. -/
@[simp] theorem wf_nil : wf skip lim [] = true := rfl

theorem reset_ram_wf : State.reset.ram.wf none 0x10000 = true := rfl
theorem reset_sram_wf : State.reset.sram.wf (some 0xFF#8) State.reset.session.sramLen = true := rfl
theorem reset_eep_wf : State.reset.eep.wf (some 0xFF#8) State.reset.session.eepLen = true := rfl

/-- Equal contents make equal lists: the form is canonical. -/
theorem find_below (hm : wfFrom skip lim lo m = true) {a : Nat} (h : a < lo) : m.find a = none := by
  induction m generalizing lo with
  | nil => rfl
  | cons c m ih =>
    obtain ⟨k, w⟩ := c
    simp only [wfFrom, Bool.and_eq_true, decide_eq_true_eq] at hm
    simp only [find]
    rw [if_neg (by omega)]
    exact ih hm.2 (by omega)

theorem ext_of_wfFrom {m' : Memory} (hm : wfFrom skip lim lo m = true) (hm' : wfFrom skip lim lo m' = true)
    (h : ∀ a, m.find a = m'.find a) : m = m' := by
  induction m generalizing m' lo with
  | nil =>
    cases m' with
    | nil => rfl
    | cons c m' => have := h c.1; simp [find] at this
  | cons c m ih =>
    obtain ⟨k, w⟩ := c
    cases m' with
    | nil => have := h k; simp [find] at this
    | cons c' m' =>
      obtain ⟨k', w'⟩ := c'
      simp only [wfFrom, Bool.and_eq_true, decide_eq_true_eq] at hm hm'
      have hk : k = k' := by
        rcases Nat.lt_trichotomy k k' with hlt | heq | hgt
        · have := h k
          rw [find, if_pos rfl, find, if_neg (by omega), find_below hm'.2 (by omega)] at this
          simp at this
        · exact heq
        · have := h k'
          rw [find, if_neg (by omega), find_below hm.2 (by omega), find, if_pos rfl] at this
          simp at this
      subst hk
      have hw := h k
      simp only [find, if_true, Option.some.injEq] at hw
      subst hw
      refine congrArg _ (ih hm.2 hm'.2 fun a => ?_)
      have := h a
      by_cases e : k = a
      · subst e; rw [find_below hm.2 (Nat.lt_succ_self _), find_below hm'.2 (Nat.lt_succ_self _)]
      · simpa [find, e] using this

end Sys2Proof.Machine.Memory

/-! ## The operands that carry stores, and restoring one -/

namespace Sys2Proof

theorem RomImage.wf_canon (r : RomImage) : r.canon.wf = true := Machine.Memory.wf_canon _

theorem RomImage.canon_of_wf {r : RomImage} (h : r.wf = true) : r.canon = r :=
  congrArg (RomImage.mk r.len) (Machine.Memory.canon_of_wf h)

/-- A decoded POWERON operand is well formed. -/
theorem PowerConfig.wf_canon (c : PowerConfig) : c.canon.wf = true := by
  simp only [wf, Bool.and_eq_true]
  exact ⟨⟨RomImage.wf_canon _, Machine.Memory.wf_canon _⟩, Machine.Memory.wf_canon _⟩

/-- A well-formed POWERON operand is decoded as it is. -/
theorem PowerConfig.canon_of_wf {c : PowerConfig} (h : c.wf = true) : c.canon = c := by
  simp only [wf, Session.wf, Bool.and_eq_true] at h
  simp only [canon, RomImage.canon_of_wf h.1.1, Machine.Memory.canon_of_wf h.1.2, Machine.Memory.canon_of_wf h.2]

namespace Machine

/-- A decoded SETSTATE operand is well formed. -/
theorem Saved.wf_canon (sv : Saved) : sv.canon.wf = true := by
  simp only [wf, Bool.and_eq_true]
  exact ⟨⟨Memory.wf_canon _, Memory.wf_canon _⟩, Memory.wf_canon _⟩

/-- A well-formed SETSTATE operand is decoded as it is. -/
theorem Saved.canon_of_wf {sv : Saved} (h : sv.wf = true) : sv.canon = sv := by
  simp only [wf, Bool.and_eq_true] at h
  simp only [canon, Memory.canon_of_wf h.1.1, Memory.canon_of_wf h.1.2, Memory.canon_of_wf h.2]

/-- The form of the stores is no part of the invariants SETSTATE checks. -/
@[simp] theorem Saved.legal_canon (sv : Saved) : sv.canon.legal = sv.legal := rfl

namespace State

variable (s : State) (sv : Saved)

/-- SETSTATE leaves the save stores in the form of this session's windows, whatever value it is given. -/
theorem load_wf : (s.load sv).sram.wf (some 0xFF#8) s.session.sramLen = true ∧
    (s.load sv).eep.wf (some 0xFF#8) s.session.eepLen = true := ⟨Memory.wf_fit _, Memory.wf_fit _⟩

@[simp] theorem load_sramLen : (s.load sv).session.sramLen = s.session.sramLen := rfl
@[simp] theorem load_eepLen : (s.load sv).session.eepLen = s.session.eepLen := rfl

/-- A restored `SRAM` byte. -/
theorem load_sramByte {i : Nat} (hi : i < s.session.sramLen) : (s.load sv).storeByte .sram i =
    if i < sv.sramLen then sv.sram.read 0xFF#8 i else Config.restoredSram s.draws i := Memory.read_fit _ _ _ hi

/-- A restored `EEP` byte. -/
theorem load_eepByte {i : Nat} (hi : i < s.session.eepLen) : (s.load sv).storeByte .eep i =
    if i < sv.eepLen then sv.eep.read 0xFF#8 i else Config.restoredEep s.draws i := Memory.read_fit _ _ _ hi

/-- A value with this session's windows is restored as it is. -/
theorem load_of_sameLen (h : sv.wf = true) (hs : sv.sramLen = s.session.sramLen) (he : sv.eepLen = s.session.eepLen) :
    (s.load sv).sram = sv.sram ∧ (s.load sv).eep = sv.eep ∧ (s.load sv).draws = s.draws := by
  simp only [Saved.wf, Bool.and_eq_true] at h
  refine ⟨?_, ?_, ?_⟩
  · simp only [load, ← hs]; exact Memory.fit_of_wf h.1.2
  · simp only [load, ← he]; exact Memory.fit_of_wf h.2
  · simp [load, Saved.short, hs, he]

end State

end Machine

end Sys2Proof
end

