-- ==== Sys2Proof/Laws/Operands.lean ====
section
/-! SUPPORT. The laws of operand assembly and of the two lanes: each index as a number, and what a read or a write of a
register on one lane comes to. -/

namespace Sys2Proof.Machine

variable (a : Addr) (sz : Size)

theorem toNat_evenAddr : (evenAddr a).toNat = a.toNat / 2 * 2 := by
  simp only [evenAddr, BitVec.toNat_ofNat]
  exact Nat.mod_eq_of_lt (by have := a.isLt; omega)

theorem toNat_evenAddr_succ : (evenAddr a + 1#24).toNat = a.toNat / 2 * 2 + 1 := by
  have := a.isLt
  simp only [BitVec.toNat_add, toNat_evenAddr, BitVec.toNat_ofNat]
  omega

theorem align_byte : align .byte a = a := rfl

theorem align_word : align .word a = evenAddr a := by
  apply BitVec.eq_of_toNat_eq
  rw [toNat_evenAddr]
  simp only [align, BitVec.toNat_and, BitVec.toNat_ofNat]
  have h : (0xFFFFFE % 2 ^ 24 : Nat) = 2 ^ 24 - 1 - 1 := by decide
  have ha := a.isLt
  apply Nat.eq_of_testBit_eq
  intro i
  have e : a.toNat / 2 * 2 = (a.toNat >>> 1) <<< 1 := by rw [Nat.shiftRight_eq_div_pow, Nat.shiftLeft_eq]
  rw [e, Nat.testBit_and, Nat.testBit_shiftLeft, Nat.testBit_shiftRight]
  by_cases h0 : i = 0
  · subst h0; simp [Nat.testBit]
  · have h1 : 1 ≤ i := by omega
    simp only [show 1 + (i - 1) = i by omega, h1, decide_true, Bool.true_and]
    by_cases h24 : i < 24
    · have : (0xFFFFFE % 2 ^ 24 : Nat).testBit i = true := by
        have hall : ∀ j : Fin 24, 1 ≤ j.val → (0xFFFFFE % 2 ^ 24 : Nat).testBit j.val = true := by decide
        exact hall ⟨i, h24⟩ h1
      rw [this, Bool.and_true]
    · rw [Nat.testBit_lt_two_pow (Nat.lt_of_lt_of_le ha (Nat.pow_le_pow_right (by omega) (by omega)))]
      rfl

theorem onLoLane_eq : onLoLane a = decide (a.toNat % 2 = 1) := by
  simp [onLoLane, BitVec.getLsbD, Nat.testBit_zero]

theorem onLoLane_evenAddr : onLoLane (evenAddr a) = false := by
  rw [onLoLane_eq, toNat_evenAddr]
  simp only [decide_eq_false_iff_not]
  omega

theorem onLoLane_evenAddr_succ : onLoLane (evenAddr a + 1#24) = true := by
  rw [onLoLane_eq, toNat_evenAddr_succ]
  simp only [decide_eq_true_eq]
  omega

theorem ramIndex_eq : ramIndex a = a.toNat % 0x10000 := by simp [ramIndex]

theorem ramIndex_lt : ramIndex a < 0x10000 := by rw [ramIndex_eq]; omega

theorem ramIndex_evenAddr : ramIndex (evenAddr a) = a.toNat % 0x10000 / 2 * 2 := by
  rw [ramIndex_eq, toNat_evenAddr]; omega

theorem ramIndex_evenAddr_succ : ramIndex (evenAddr a + 1#24) = a.toNat % 0x10000 / 2 * 2 + 1 := by
  rw [ramIndex_eq, toNat_evenAddr_succ]; omega

theorem toNat_offsetOf : (offsetOf a).toNat = a.toNat % 0x200000 := by simp [offsetOf]

theorem cartNat_lt (r : Fin 5) : cartNat r a < 0xA00000 := by
  have := r.isLt
  simp only [cartNat]
  omega

theorem cartAddr_eq (r : Fin 5) : cartAddr r a = BitVec.ofNat 24 (cartNat r a) := by
  simp [cartAddr, cartNat, toNat_offsetOf]

theorem toNat_cartAddr (r : Fin 5) : (cartAddr r a).toNat = cartNat r a := by
  rw [cartAddr_eq, BitVec.toNat_ofNat, Nat.mod_eq_of_lt (Nat.lt_trans (cartNat_lt a r) (by decide))]

theorem cartNat_evenAddr (r : Fin 5) : cartNat r (evenAddr a) = cartNat r a / 2 * 2 := by
  simp only [cartNat, toNat_evenAddr]; omega

theorem cartNat_evenAddr_succ (r : Fin 5) : cartNat r (evenAddr a + 1#24) = cartNat r a / 2 * 2 + 1 := by
  simp only [cartNat, toNat_evenAddr_succ]; omega

theorem secAddr_eq : secAddr a = BitVec.ofNat 16 (a.toNat % 0x10000) := by
  apply BitVec.eq_of_toNat_eq; simp [secAddr]

theorem secAddr_evenAddr : secAddr (evenAddr a) = BitVec.ofNat 16 (a.toNat % 0x10000 / 2 * 2) := by
  rw [secAddr_eq, toNat_evenAddr]; congr 1; omega

theorem auxIndex_eq : auxIndex a = BitVec.ofNat 8 (a.toNat % 256) := by
  apply BitVec.eq_of_toNat_eq; simp [auxIndex]

/-- A word read is two byte reads, whatever the lanes hold (20_memory.md R76). -/
theorem readLanes_word (lane : Addr → Byte) :
    readLanes .word a lane = .word (lane (evenAddr a) ++ lane (evenAddr a + 1#24)) := by
  simp [readLanes, align_word]

/-- A word write is two byte writes, HI first (R76). -/
theorem writeLanes_word {σ : Type} (d : Word) (lane : Addr → Byte → σ → σ) (s : σ) :
    writeLanes .word a d lane s = lane (evenAddr a + 1#24) (loByte d) (lane (evenAddr a) (hiByte d) s) := by
  simp [writeLanes, align_word]

theorem allOnes_append : 0xFF#8 ++ 0xFF#8 = 0xFFFF#16 := by decide

/-- All ones on every lane is all ones at the access width. -/
theorem readLanes_allOnes : readLanes sz a (fun _ => 0xFF#8) = allOnes sz := by
  cases sz with
  | byte => rfl
  | word => rw [readLanes_word, allOnes_append]; rfl

/-- Reading a register on the LO lane (30_encoding.md R109). -/
theorem readLanes_loRegister (r : Byte) : readLanes sz a (loRegister r) = shownLo sz a r := by
  cases sz with
  | byte => simp [readLanes, loRegister, shownLo, onLoLane_eq]
  | word => simp [readLanes_word, loRegister, shownLo, onLoLane_evenAddr, onLoLane_evenAddr_succ]

/-- Reading a register on the HI lane (R109). -/
theorem readLanes_hiRegister (r : Byte) : readLanes sz a (hiRegister r) = shownHi sz a r := by
  cases sz with
  | byte =>
    simp only [readLanes, hiRegister, shownHi, onLoLane_eq, decide_eq_true_eq]
    rcases Nat.mod_two_eq_zero_or_one a.toNat with h | h <;> simp [h]
  | word => simp [readLanes_word, hiRegister, shownHi, onLoLane_evenAddr, onLoLane_evenAddr_succ]

/-- Writing a register on the LO lane: the byte that reaches it, or nothing (R109). -/
theorem writeLanes_toLoRegister {σ : Type} (d : Word) (w : Byte → σ → σ) (s : σ) :
    writeLanes sz a d (toLoRegister w) s = if reachesLo sz a then w (loByte d) s else s := by
  cases sz with
  | byte => simp [writeLanes, toLoRegister, reachesLo, onLoLane_eq]
  | word => simp [writeLanes_word, toLoRegister, reachesLo, onLoLane_evenAddr, onLoLane_evenAddr_succ]

/-- Writing a register on the HI lane (R109). -/
theorem writeLanes_toHiRegister {σ : Type} (d : Word) (w : Byte → σ → σ) (s : σ) :
    writeLanes sz a d (toHiRegister w) s = if reachesHi sz a then w (hiData sz d) s else s := by
  cases sz with
  | byte =>
    simp only [writeLanes, toHiRegister, reachesHi, onLoLane_eq, decide_eq_true_eq, hiData]
    rcases Nat.mod_two_eq_zero_or_one a.toNat with h | h <;> simp [h, loByte]
  | word => simp [writeLanes_word, toHiRegister, reachesHi, onLoLane_evenAddr, onLoLane_evenAddr_succ, hiData, hiByte]

/-- A byte of two halves is read back half by half. -/
theorem hiByte_append_loByte (d : Word) : hiByte d ++ loByte d = d := by
  apply BitVec.eq_of_getLsbD_eq
  intro i hi
  rw [BitVec.getLsbD_append]
  by_cases h : i < 8
  · simp [h, loByte]
  · simp [h, hiByte, show i - 8 < 8 by omega, show 8 + (i - 8) = i by omega]

theorem virtualPort_eq_some {v : BitVec 4} {w : Fin 15} (h : v.toNat = w.val) : virtualPort v = some w := by
  have := w.isLt
  simp [virtualPort, h]

theorem virtualPort_eq_none {v : BitVec 4} (h : 14 < v.toNat) : virtualPort v = none := by
  simp [virtualPort]; omega

/-- The code table of 10_state.md R39. -/
theorem typeOfCode_of_mem {t : Byte} {ty : DevType}
    (h : (t.toNat, ty) ∈ [(0, DevType.none), (1, .pad3), (2, .pad6), (3, .pad2), (4, .mouse), (5, .tap)]) :
    typeOfCode t = some ty := by
  simp only [List.mem_cons, Prod.mk.injEq, List.not_mem_nil, or_false] at h
  rcases h with ⟨h, rfl⟩ | ⟨h, rfl⟩ | ⟨h, rfl⟩ | ⟨h, rfl⟩ | ⟨h, rfl⟩ | ⟨h, rfl⟩ <;> simp only [typeOfCode, h]

theorem typeOfCode_eq_none {t : Byte} (h : 5 < t.toNat) : typeOfCode t = none := by
  simp only [typeOfCode]
  split <;> first | omega | rfl

end Sys2Proof.Machine
end

