-- ==== Sys2Proof/Laws/State.lean ====
section
/-! SUPPORT. What each field reads as after each update of the state: one lemma per field per update. -/

namespace Sys2Proof.Machine.State

variable (s : State)

@[simp] theorem withSession_session (x : Session) : (s.withSession x).session = x := rfl
@[simp] theorem withSession_mapper (x : Session) : (s.withSession x).mapper = s.mapper := rfl
@[simp] theorem withSession_pageMap (x : Session) : (s.withSession x).pageMap = s.pageMap := rfl
@[simp] theorem withSession_ram (x : Session) : (s.withSession x).ram = s.ram := rfl
@[simp] theorem withSession_ramDraw (x : Session) : (s.withSession x).ramDraw = s.ramDraw := rfl
@[simp] theorem withSession_sram (x : Session) : (s.withSession x).sram = s.sram := rfl
@[simp] theorem withSession_eep (x : Session) : (s.withSession x).eep = s.eep := rfl
@[simp] theorem withSession_arb (x : Session) : (s.withSession x).arb = s.arb := rfl
@[simp] theorem withSession_ports (x : Session) : (s.withSession x).ports = s.ports := rfl
@[simp] theorem withSession_devices (x : Session) : (s.withSession x).devices = s.devices := rfl
@[simp] theorem withSession_keyMap (x : Session) : (s.withSession x).keyMap = s.keyMap := rfl
@[simp] theorem withSession_pending (x : Session) : (s.withSession x).pending = s.pending := rfl
@[simp] theorem withSession_result (x : Session) : (s.withSession x).result = s.result := rfl
@[simp] theorem withSession_events (x : Session) : (s.withSession x).events = s.events := rfl
@[simp] theorem withSession_draws (x : Session) : (s.withSession x).draws = s.draws := rfl

@[simp] theorem withMapper_session (x : Mapper) : (s.withMapper x).session = s.session := rfl
@[simp] theorem withMapper_mapper (x : Mapper) : (s.withMapper x).mapper = x := rfl
@[simp] theorem withMapper_pageMap (x : Mapper) : (s.withMapper x).pageMap = s.pageMap := rfl
@[simp] theorem withMapper_ram (x : Mapper) : (s.withMapper x).ram = s.ram := rfl
@[simp] theorem withMapper_ramDraw (x : Mapper) : (s.withMapper x).ramDraw = s.ramDraw := rfl
@[simp] theorem withMapper_sram (x : Mapper) : (s.withMapper x).sram = s.sram := rfl
@[simp] theorem withMapper_eep (x : Mapper) : (s.withMapper x).eep = s.eep := rfl
@[simp] theorem withMapper_arb (x : Mapper) : (s.withMapper x).arb = s.arb := rfl
@[simp] theorem withMapper_ports (x : Mapper) : (s.withMapper x).ports = s.ports := rfl
@[simp] theorem withMapper_devices (x : Mapper) : (s.withMapper x).devices = s.devices := rfl
@[simp] theorem withMapper_keyMap (x : Mapper) : (s.withMapper x).keyMap = s.keyMap := rfl
@[simp] theorem withMapper_pending (x : Mapper) : (s.withMapper x).pending = s.pending := rfl
@[simp] theorem withMapper_result (x : Mapper) : (s.withMapper x).result = s.result := rfl
@[simp] theorem withMapper_events (x : Mapper) : (s.withMapper x).events = s.events := rfl
@[simp] theorem withMapper_draws (x : Mapper) : (s.withMapper x).draws = s.draws := rfl

@[simp] theorem withPageMap_session (x : Vector (BitVec 6) 8) : (s.withPageMap x).session = s.session := rfl
@[simp] theorem withPageMap_mapper (x : Vector (BitVec 6) 8) : (s.withPageMap x).mapper = s.mapper := rfl
@[simp] theorem withPageMap_pageMap (x : Vector (BitVec 6) 8) : (s.withPageMap x).pageMap = x := rfl
@[simp] theorem withPageMap_ram (x : Vector (BitVec 6) 8) : (s.withPageMap x).ram = s.ram := rfl
@[simp] theorem withPageMap_ramDraw (x : Vector (BitVec 6) 8) : (s.withPageMap x).ramDraw = s.ramDraw := rfl
@[simp] theorem withPageMap_sram (x : Vector (BitVec 6) 8) : (s.withPageMap x).sram = s.sram := rfl
@[simp] theorem withPageMap_eep (x : Vector (BitVec 6) 8) : (s.withPageMap x).eep = s.eep := rfl
@[simp] theorem withPageMap_arb (x : Vector (BitVec 6) 8) : (s.withPageMap x).arb = s.arb := rfl
@[simp] theorem withPageMap_ports (x : Vector (BitVec 6) 8) : (s.withPageMap x).ports = s.ports := rfl
@[simp] theorem withPageMap_devices (x : Vector (BitVec 6) 8) : (s.withPageMap x).devices = s.devices := rfl
@[simp] theorem withPageMap_keyMap (x : Vector (BitVec 6) 8) : (s.withPageMap x).keyMap = s.keyMap := rfl
@[simp] theorem withPageMap_pending (x : Vector (BitVec 6) 8) : (s.withPageMap x).pending = s.pending := rfl
@[simp] theorem withPageMap_result (x : Vector (BitVec 6) 8) : (s.withPageMap x).result = s.result := rfl
@[simp] theorem withPageMap_events (x : Vector (BitVec 6) 8) : (s.withPageMap x).events = s.events := rfl
@[simp] theorem withPageMap_draws (x : Vector (BitVec 6) 8) : (s.withPageMap x).draws = s.draws := rfl

@[simp] theorem withRam_session (x : Memory) : (s.withRam x).session = s.session := rfl
@[simp] theorem withRam_mapper (x : Memory) : (s.withRam x).mapper = s.mapper := rfl
@[simp] theorem withRam_pageMap (x : Memory) : (s.withRam x).pageMap = s.pageMap := rfl
@[simp] theorem withRam_ram (x : Memory) : (s.withRam x).ram = x := rfl
@[simp] theorem withRam_ramDraw (x : Memory) : (s.withRam x).ramDraw = s.ramDraw := rfl
@[simp] theorem withRam_sram (x : Memory) : (s.withRam x).sram = s.sram := rfl
@[simp] theorem withRam_eep (x : Memory) : (s.withRam x).eep = s.eep := rfl
@[simp] theorem withRam_arb (x : Memory) : (s.withRam x).arb = s.arb := rfl
@[simp] theorem withRam_ports (x : Memory) : (s.withRam x).ports = s.ports := rfl
@[simp] theorem withRam_devices (x : Memory) : (s.withRam x).devices = s.devices := rfl
@[simp] theorem withRam_keyMap (x : Memory) : (s.withRam x).keyMap = s.keyMap := rfl
@[simp] theorem withRam_pending (x : Memory) : (s.withRam x).pending = s.pending := rfl
@[simp] theorem withRam_result (x : Memory) : (s.withRam x).result = s.result := rfl
@[simp] theorem withRam_events (x : Memory) : (s.withRam x).events = s.events := rfl
@[simp] theorem withRam_draws (x : Memory) : (s.withRam x).draws = s.draws := rfl

@[simp] theorem withSram_session (x : Memory) : (s.withSram x).session = s.session := rfl
@[simp] theorem withSram_mapper (x : Memory) : (s.withSram x).mapper = s.mapper := rfl
@[simp] theorem withSram_pageMap (x : Memory) : (s.withSram x).pageMap = s.pageMap := rfl
@[simp] theorem withSram_ram (x : Memory) : (s.withSram x).ram = s.ram := rfl
@[simp] theorem withSram_ramDraw (x : Memory) : (s.withSram x).ramDraw = s.ramDraw := rfl
@[simp] theorem withSram_sram (x : Memory) : (s.withSram x).sram = x := rfl
@[simp] theorem withSram_eep (x : Memory) : (s.withSram x).eep = s.eep := rfl
@[simp] theorem withSram_arb (x : Memory) : (s.withSram x).arb = s.arb := rfl
@[simp] theorem withSram_ports (x : Memory) : (s.withSram x).ports = s.ports := rfl
@[simp] theorem withSram_devices (x : Memory) : (s.withSram x).devices = s.devices := rfl
@[simp] theorem withSram_keyMap (x : Memory) : (s.withSram x).keyMap = s.keyMap := rfl
@[simp] theorem withSram_pending (x : Memory) : (s.withSram x).pending = s.pending := rfl
@[simp] theorem withSram_result (x : Memory) : (s.withSram x).result = s.result := rfl
@[simp] theorem withSram_events (x : Memory) : (s.withSram x).events = s.events := rfl
@[simp] theorem withSram_draws (x : Memory) : (s.withSram x).draws = s.draws := rfl

@[simp] theorem withEep_session (x : Memory) : (s.withEep x).session = s.session := rfl
@[simp] theorem withEep_mapper (x : Memory) : (s.withEep x).mapper = s.mapper := rfl
@[simp] theorem withEep_pageMap (x : Memory) : (s.withEep x).pageMap = s.pageMap := rfl
@[simp] theorem withEep_ram (x : Memory) : (s.withEep x).ram = s.ram := rfl
@[simp] theorem withEep_ramDraw (x : Memory) : (s.withEep x).ramDraw = s.ramDraw := rfl
@[simp] theorem withEep_sram (x : Memory) : (s.withEep x).sram = s.sram := rfl
@[simp] theorem withEep_eep (x : Memory) : (s.withEep x).eep = x := rfl
@[simp] theorem withEep_arb (x : Memory) : (s.withEep x).arb = s.arb := rfl
@[simp] theorem withEep_ports (x : Memory) : (s.withEep x).ports = s.ports := rfl
@[simp] theorem withEep_devices (x : Memory) : (s.withEep x).devices = s.devices := rfl
@[simp] theorem withEep_keyMap (x : Memory) : (s.withEep x).keyMap = s.keyMap := rfl
@[simp] theorem withEep_pending (x : Memory) : (s.withEep x).pending = s.pending := rfl
@[simp] theorem withEep_result (x : Memory) : (s.withEep x).result = s.result := rfl
@[simp] theorem withEep_events (x : Memory) : (s.withEep x).events = s.events := rfl
@[simp] theorem withEep_draws (x : Memory) : (s.withEep x).draws = s.draws := rfl

@[simp] theorem withArb_session (x : Arbiter) : (s.withArb x).session = s.session := rfl
@[simp] theorem withArb_mapper (x : Arbiter) : (s.withArb x).mapper = s.mapper := rfl
@[simp] theorem withArb_pageMap (x : Arbiter) : (s.withArb x).pageMap = s.pageMap := rfl
@[simp] theorem withArb_ram (x : Arbiter) : (s.withArb x).ram = s.ram := rfl
@[simp] theorem withArb_ramDraw (x : Arbiter) : (s.withArb x).ramDraw = s.ramDraw := rfl
@[simp] theorem withArb_sram (x : Arbiter) : (s.withArb x).sram = s.sram := rfl
@[simp] theorem withArb_eep (x : Arbiter) : (s.withArb x).eep = s.eep := rfl
@[simp] theorem withArb_arb (x : Arbiter) : (s.withArb x).arb = x := rfl
@[simp] theorem withArb_ports (x : Arbiter) : (s.withArb x).ports = s.ports := rfl
@[simp] theorem withArb_devices (x : Arbiter) : (s.withArb x).devices = s.devices := rfl
@[simp] theorem withArb_keyMap (x : Arbiter) : (s.withArb x).keyMap = s.keyMap := rfl
@[simp] theorem withArb_pending (x : Arbiter) : (s.withArb x).pending = s.pending := rfl
@[simp] theorem withArb_result (x : Arbiter) : (s.withArb x).result = s.result := rfl
@[simp] theorem withArb_events (x : Arbiter) : (s.withArb x).events = s.events := rfl
@[simp] theorem withArb_draws (x : Arbiter) : (s.withArb x).draws = s.draws := rfl

@[simp] theorem withPorts_session (x : Vector Port 3) : (s.withPorts x).session = s.session := rfl
@[simp] theorem withPorts_mapper (x : Vector Port 3) : (s.withPorts x).mapper = s.mapper := rfl
@[simp] theorem withPorts_pageMap (x : Vector Port 3) : (s.withPorts x).pageMap = s.pageMap := rfl
@[simp] theorem withPorts_ram (x : Vector Port 3) : (s.withPorts x).ram = s.ram := rfl
@[simp] theorem withPorts_ramDraw (x : Vector Port 3) : (s.withPorts x).ramDraw = s.ramDraw := rfl
@[simp] theorem withPorts_sram (x : Vector Port 3) : (s.withPorts x).sram = s.sram := rfl
@[simp] theorem withPorts_eep (x : Vector Port 3) : (s.withPorts x).eep = s.eep := rfl
@[simp] theorem withPorts_arb (x : Vector Port 3) : (s.withPorts x).arb = s.arb := rfl
@[simp] theorem withPorts_ports (x : Vector Port 3) : (s.withPorts x).ports = x := rfl
@[simp] theorem withPorts_devices (x : Vector Port 3) : (s.withPorts x).devices = s.devices := rfl
@[simp] theorem withPorts_keyMap (x : Vector Port 3) : (s.withPorts x).keyMap = s.keyMap := rfl
@[simp] theorem withPorts_pending (x : Vector Port 3) : (s.withPorts x).pending = s.pending := rfl
@[simp] theorem withPorts_result (x : Vector Port 3) : (s.withPorts x).result = s.result := rfl
@[simp] theorem withPorts_events (x : Vector Port 3) : (s.withPorts x).events = s.events := rfl
@[simp] theorem withPorts_draws (x : Vector Port 3) : (s.withPorts x).draws = s.draws := rfl

@[simp] theorem withDevices_session (x : Vector Device 15) : (s.withDevices x).session = s.session := rfl
@[simp] theorem withDevices_mapper (x : Vector Device 15) : (s.withDevices x).mapper = s.mapper := rfl
@[simp] theorem withDevices_pageMap (x : Vector Device 15) : (s.withDevices x).pageMap = s.pageMap := rfl
@[simp] theorem withDevices_ram (x : Vector Device 15) : (s.withDevices x).ram = s.ram := rfl
@[simp] theorem withDevices_ramDraw (x : Vector Device 15) : (s.withDevices x).ramDraw = s.ramDraw := rfl
@[simp] theorem withDevices_sram (x : Vector Device 15) : (s.withDevices x).sram = s.sram := rfl
@[simp] theorem withDevices_eep (x : Vector Device 15) : (s.withDevices x).eep = s.eep := rfl
@[simp] theorem withDevices_arb (x : Vector Device 15) : (s.withDevices x).arb = s.arb := rfl
@[simp] theorem withDevices_ports (x : Vector Device 15) : (s.withDevices x).ports = s.ports := rfl
@[simp] theorem withDevices_devices (x : Vector Device 15) : (s.withDevices x).devices = x := rfl
@[simp] theorem withDevices_keyMap (x : Vector Device 15) : (s.withDevices x).keyMap = s.keyMap := rfl
@[simp] theorem withDevices_pending (x : Vector Device 15) : (s.withDevices x).pending = s.pending := rfl
@[simp] theorem withDevices_result (x : Vector Device 15) : (s.withDevices x).result = s.result := rfl
@[simp] theorem withDevices_events (x : Vector Device 15) : (s.withDevices x).events = s.events := rfl
@[simp] theorem withDevices_draws (x : Vector Device 15) : (s.withDevices x).draws = s.draws := rfl

@[simp] theorem withKeyMap_session (x : Vector KeyRow 15) : (s.withKeyMap x).session = s.session := rfl
@[simp] theorem withKeyMap_mapper (x : Vector KeyRow 15) : (s.withKeyMap x).mapper = s.mapper := rfl
@[simp] theorem withKeyMap_pageMap (x : Vector KeyRow 15) : (s.withKeyMap x).pageMap = s.pageMap := rfl
@[simp] theorem withKeyMap_ram (x : Vector KeyRow 15) : (s.withKeyMap x).ram = s.ram := rfl
@[simp] theorem withKeyMap_ramDraw (x : Vector KeyRow 15) : (s.withKeyMap x).ramDraw = s.ramDraw := rfl
@[simp] theorem withKeyMap_sram (x : Vector KeyRow 15) : (s.withKeyMap x).sram = s.sram := rfl
@[simp] theorem withKeyMap_eep (x : Vector KeyRow 15) : (s.withKeyMap x).eep = s.eep := rfl
@[simp] theorem withKeyMap_arb (x : Vector KeyRow 15) : (s.withKeyMap x).arb = s.arb := rfl
@[simp] theorem withKeyMap_ports (x : Vector KeyRow 15) : (s.withKeyMap x).ports = s.ports := rfl
@[simp] theorem withKeyMap_devices (x : Vector KeyRow 15) : (s.withKeyMap x).devices = s.devices := rfl
@[simp] theorem withKeyMap_keyMap (x : Vector KeyRow 15) : (s.withKeyMap x).keyMap = x := rfl
@[simp] theorem withKeyMap_pending (x : Vector KeyRow 15) : (s.withKeyMap x).pending = s.pending := rfl
@[simp] theorem withKeyMap_result (x : Vector KeyRow 15) : (s.withKeyMap x).result = s.result := rfl
@[simp] theorem withKeyMap_events (x : Vector KeyRow 15) : (s.withKeyMap x).events = s.events := rfl
@[simp] theorem withKeyMap_draws (x : Vector KeyRow 15) : (s.withKeyMap x).draws = s.draws := rfl

@[simp] theorem withPending_session (x : List Request) : (s.withPending x).session = s.session := rfl
@[simp] theorem withPending_mapper (x : List Request) : (s.withPending x).mapper = s.mapper := rfl
@[simp] theorem withPending_pageMap (x : List Request) : (s.withPending x).pageMap = s.pageMap := rfl
@[simp] theorem withPending_ram (x : List Request) : (s.withPending x).ram = s.ram := rfl
@[simp] theorem withPending_ramDraw (x : List Request) : (s.withPending x).ramDraw = s.ramDraw := rfl
@[simp] theorem withPending_sram (x : List Request) : (s.withPending x).sram = s.sram := rfl
@[simp] theorem withPending_eep (x : List Request) : (s.withPending x).eep = s.eep := rfl
@[simp] theorem withPending_arb (x : List Request) : (s.withPending x).arb = s.arb := rfl
@[simp] theorem withPending_ports (x : List Request) : (s.withPending x).ports = s.ports := rfl
@[simp] theorem withPending_devices (x : List Request) : (s.withPending x).devices = s.devices := rfl
@[simp] theorem withPending_keyMap (x : List Request) : (s.withPending x).keyMap = s.keyMap := rfl
@[simp] theorem withPending_pending (x : List Request) : (s.withPending x).pending = x := rfl
@[simp] theorem withPending_result (x : List Request) : (s.withPending x).result = s.result := rfl
@[simp] theorem withPending_events (x : List Request) : (s.withPending x).events = s.events := rfl
@[simp] theorem withPending_draws (x : List Request) : (s.withPending x).draws = s.draws := rfl

@[simp] theorem withResult_session (x : Result) : (s.withResult x).session = s.session := rfl
@[simp] theorem withResult_mapper (x : Result) : (s.withResult x).mapper = s.mapper := rfl
@[simp] theorem withResult_pageMap (x : Result) : (s.withResult x).pageMap = s.pageMap := rfl
@[simp] theorem withResult_ram (x : Result) : (s.withResult x).ram = s.ram := rfl
@[simp] theorem withResult_ramDraw (x : Result) : (s.withResult x).ramDraw = s.ramDraw := rfl
@[simp] theorem withResult_sram (x : Result) : (s.withResult x).sram = s.sram := rfl
@[simp] theorem withResult_eep (x : Result) : (s.withResult x).eep = s.eep := rfl
@[simp] theorem withResult_arb (x : Result) : (s.withResult x).arb = s.arb := rfl
@[simp] theorem withResult_ports (x : Result) : (s.withResult x).ports = s.ports := rfl
@[simp] theorem withResult_devices (x : Result) : (s.withResult x).devices = s.devices := rfl
@[simp] theorem withResult_keyMap (x : Result) : (s.withResult x).keyMap = s.keyMap := rfl
@[simp] theorem withResult_pending (x : Result) : (s.withResult x).pending = s.pending := rfl
@[simp] theorem withResult_result (x : Result) : (s.withResult x).result = x := rfl
@[simp] theorem withResult_events (x : Result) : (s.withResult x).events = s.events := rfl
@[simp] theorem withResult_draws (x : Result) : (s.withResult x).draws = s.draws := rfl

@[simp] theorem emit_session (e : Event) : (s.emit e).session = s.session := rfl
@[simp] theorem emit_mapper (e : Event) : (s.emit e).mapper = s.mapper := rfl
@[simp] theorem emit_pageMap (e : Event) : (s.emit e).pageMap = s.pageMap := rfl
@[simp] theorem emit_ram (e : Event) : (s.emit e).ram = s.ram := rfl
@[simp] theorem emit_ramDraw (e : Event) : (s.emit e).ramDraw = s.ramDraw := rfl
@[simp] theorem emit_sram (e : Event) : (s.emit e).sram = s.sram := rfl
@[simp] theorem emit_eep (e : Event) : (s.emit e).eep = s.eep := rfl
@[simp] theorem emit_arb (e : Event) : (s.emit e).arb = s.arb := rfl
@[simp] theorem emit_ports (e : Event) : (s.emit e).ports = s.ports := rfl
@[simp] theorem emit_devices (e : Event) : (s.emit e).devices = s.devices := rfl
@[simp] theorem emit_keyMap (e : Event) : (s.emit e).keyMap = s.keyMap := rfl
@[simp] theorem emit_pending (e : Event) : (s.emit e).pending = s.pending := rfl
@[simp] theorem emit_result (e : Event) : (s.emit e).result = s.result := rfl
@[simp] theorem emit_events (e : Event) : (s.emit e).events = s.events ++ [e] := rfl
@[simp] theorem emit_draws (e : Event) : (s.emit e).draws = s.draws := rfl

@[simp] theorem draw_session : s.draw.session = s.session := rfl
@[simp] theorem draw_mapper : s.draw.mapper = s.mapper := rfl
@[simp] theorem draw_pageMap : s.draw.pageMap = s.pageMap := rfl
@[simp] theorem draw_ram : s.draw.ram = s.ram := rfl
@[simp] theorem draw_ramDraw : s.draw.ramDraw = s.ramDraw := rfl
@[simp] theorem draw_sram : s.draw.sram = s.sram := rfl
@[simp] theorem draw_eep : s.draw.eep = s.eep := rfl
@[simp] theorem draw_arb : s.draw.arb = s.arb := rfl
@[simp] theorem draw_ports : s.draw.ports = s.ports := rfl
@[simp] theorem draw_devices : s.draw.devices = s.devices := rfl
@[simp] theorem draw_keyMap : s.draw.keyMap = s.keyMap := rfl
@[simp] theorem draw_pending : s.draw.pending = s.pending := rfl
@[simp] theorem draw_result : s.draw.result = s.result := rfl
@[simp] theorem draw_events : s.draw.events = s.events := rfl
@[simp] theorem draw_draws : s.draw.draws = s.draws + 1 := rfl

end Sys2Proof.Machine.State
end

