-- ==== Sys2Proof/Laws/Ops.lean ====
section
/-! SUPPORT. One lemma per shared operation: what each indexed accessor reads after each indexed update, and everything
the arbiter's lines, the line dispatch and the register forms can do. -/

namespace Sys2Proof.Machine

/-- An entry of an updated vector. -/
theorem getElem_set_fin {α : Type} {n : Nat} (xs : Vector α n) (i j : Fin n) (x : α) :
    (xs.set i x)[j] = if j = i then x else xs[j] := by
  simp only [Fin.getElem_fin, Vector.getElem_set, Fin.ext_iff, eq_comm]

namespace State

variable (s : State)

/-! ## Indexed accessors -/

theorem dev_setDev (v w : Fin 15) (d : Device) : (s.setDev v d).dev w = if w = v then d else s.dev w := by
  simp only [dev, setDev, withDevices, getElem_set_fin]

theorem port_setPort (p q : Fin 3) (x : Port) : (s.setPort p x).port q = if q = p then x else s.port q := by
  simp only [port, setPort, withPorts, getElem_set_fin]

theorem keys_setKeys (v w : Fin 15) (k : KeyRow) : (s.setKeys v k).keys w = if w = v then k else s.keys w := by
  simp only [keys, setKeys, withKeyMap, getElem_set_fin]

theorem page_setPage (k w : Fin 8) (x : BitVec 6) : (s.setPage k x).page w = if w = k then x else s.page w := by
  simp only [page, setPage, withPageMap, getElem_set_fin]

theorem ramByte_setRamByte (i j : Nat) (v : Byte) : (s.setRamByte i v).ramByte j = if j = i then v else s.ramByte j := by
  simp only [ramByte, setRamByte, withRam, Memory.find_put_none]
  split <;> simp

theorem storeByte_setStoreByte (st st' : Store) (i j : Nat) (v : Byte) :
    (s.setStoreByte st i v).storeByte st' j = if st' = st ∧ j = i then v else s.storeByte st' j := by
  cases st <;> cases st' <;> simp [storeByte, setStoreByte, withSram, withEep, Memory.read_put]

/-- A RAM write keeps the canonical form. -/
theorem setRamByte_wf {i : Nat} (hi : i < 0x10000) (v : Byte) (h : s.ram.wf none 0x10000 = true) :
    (s.setRamByte i v).ram.wf none 0x10000 = true := Memory.wf_put hi h

/-- A save write inside the store keeps both canonical forms. -/
theorem setStoreByte_wf {st : Store} {i sl el : Nat} (hi : (st = .sram → i < sl) ∧ (st = .eep → i < el)) (v : Byte)
    (h : s.sram.wf (some 0xFF#8) sl = true ∧ s.eep.wf (some 0xFF#8) el = true) :
    (s.setStoreByte st i v).sram.wf (some 0xFF#8) sl = true ∧ (s.setStoreByte st i v).eep.wf (some 0xFF#8) el = true := by
  cases st with
  | sram => exact ⟨Memory.wf_put (hi.1 rfl) h.1, h.2⟩
  | eep => exact ⟨h.1, Memory.wf_put (hi.2 rfl) h.2⟩

/-- A save store takes a byte and nothing else of the state changes. -/
theorem setStoreByte_eq (st : Store) (i : Nat) (v : Byte) :
    s.setStoreByte st i v = { s with sram := (s.setStoreByte st i v).sram, eep := (s.setStoreByte st i v).eep } := by
  cases st <;> rfl

end State

/-- A next state is what a completed operation leaves. -/
theorem finish_eq (s : State) (r : Result) : s.finish r = .next { s with result := r } := rfl

theorem sentinel_eq (sz : Size) : sentinel sz = allOnes sz := by cases sz <;> rfl

/-! ## The register forms -/

theorem readRegister_eq (sz : Size) (a : Addr) (r : Byte) (s : State) :
    readRegister sz a r s = .next { s with result := shownLo sz a r } := by
  rw [readRegister, readLanes_loRegister, finish_eq]

theorem writeRegister_eq (sz : Size) (a : Addr) (d : Word) (w : Byte → State → State) (s : State) :
    writeRegister sz a d w s =
      .next { (if reachesLo sz a then w (d.extractLsb' 0 8) s else s) with result := .none } := by
  rw [writeRegister, writeLanes_toLoRegister, finish_eq]; rfl

/-! ## The arbiter's lines -/

/-- Everything a call on the request line can do (42_bus_arbiter.md R194 to R196). -/
theorem requestRelease_cases (clk : Clk) (want : Bool) (s : State) :
    (want = false ∧ s.arb.req = false ∧ requestRelease clk want s = stopEdge clk s) ∨
    (want = true ∧ s.arb.req = true ∧ requestRelease clk want s = resumeEdge clk s) ∨
    (want = !s.arb.req ∧ requestRelease clk want s = s) := by
  cases want <;> cases h : s.arb.req <;> simp [requestRelease, h]

theorem stopEdge_eq (clk : Clk) (s : State) :
    stopEdge clk s = { s with
      arb := ⟨true, s.arb.rst, clk.priNow, !s.arb.rst⟩
      events := s.events ++
        if s.arb.rst then [] else [.secAdvance (truncSub (Session.syncPos s.session clk) clk.secOdo)] } := by
  cases h : s.arb.rst <;> simp [stopEdge, h, State.withArb, State.emit]

theorem resumeEdge_eq (clk : Clk) (s : State) :
    resumeEdge clk s = { s with
      arb := { s.arb with req := false }
      events := s.events ++ [.secSetOdo (Session.syncPos s.session clk)] } := rfl

/-- Everything a call on the reset line can do (R198, R199). -/
theorem resetLine_cases (on : Bool) (s : State) :
    (on = true ∧ s.arb.rst = false ∧ resetLine on s = { s with
      arb := { s.arb with rst := true }, events := s.events ++ [.secHalt, .soundReset] }) ∨
    (on = false ∧ s.arb.rst = true ∧ resetLine on s = { s with arb := { s.arb with rst := false } }) ∨
    (on = s.arb.rst ∧ resetLine on s = s) := by
  cases on <;> cases h : s.arb.rst <;> simp [resetLine, h, State.withArb, State.emit]

/-- What the status byte shows: bit 0 is 1 while the bus is not requested and, inside the grace window, while the secondary
had been running (R200). -/
theorem statusByte_eq (c : Session) (b : Arbiter) (clk : Clk) :
    statusByte c b clk = c.statusHi ++ BitVec.ofBool
      (decide (b.req = false ∨ clk.priNow ≤ b.lastReqCycle + c.graceCycles ∧ b.lastReqPrior = true)) := by
  by_cases h : b.req = false
  · simp [statusByte, h]
  · by_cases h' : truncSub clk.priNow b.lastReqCycle ≤ c.graceCycles
    · have : clk.priNow ≤ b.lastReqCycle + c.graceCycles := by simp only [truncSub] at h'; omega
      simp [statusByte, h, h', this]
    · have : ¬ clk.priNow ≤ b.lastReqCycle + c.graceCycles := by simp only [truncSub] at h'; omega
      simp [statusByte, h, h', this]

/-- Bit 0 of the status byte. -/
theorem statusByte_bit0 (c : Session) (b : Arbiter) (clk : Clk) :
    (statusByte c b clk).getLsbD 0 = true ↔
      b.req = false ∨ clk.priNow ≤ b.lastReqCycle + c.graceCycles ∧ b.lastReqPrior = true := by
  rw [statusByte_eq]
  exact Eq.to_iff ((congrArg (· = true) (BitVec.getLsbD_append (n := 7) (m := 1))).trans (by simp))

/-- The upper bits of the status byte. -/
theorem statusByte_upper (c : Session) (b : Arbiter) (clk : Clk) {i : Nat} (hi : 1 ≤ i) :
    (statusByte c b clk).getLsbD i = c.statusHi.getLsbD (i - 1) := by
  rw [statusByte_eq]
  exact (BitVec.getLsbD_append (n := 7) (m := 1)).trans (if_neg (by omega))

/-! ## The cycle conversion -/

theorem conv_of_pos {c : Session} (h : c.convDen ≠ 0) (n : Nat) :
    Session.conv c n = n * c.convNum / c.convDen := if_neg h

theorem conv_of_zero {c : Session} (h : c.convDen = 0) (n : Nat) :
    Session.conv c n = convUnstated c.convNum n := if_pos h

theorem conv_zero (c : Session) : Session.conv c 0 = 0 := by
  by_cases h : c.convDen = 0
  · exact conv_of_zero h 0
  · simp [conv_of_pos h]

theorem convUnstated_mono (num : Nat) {m n : Nat} (h : m ≤ n) : convUnstated num m ≤ convUnstated num n :=
  monotone_nat_of_le_succ (fun _ => Nat.le_add_right ..) h

/-- More cycles never convert to fewer (R192). -/
theorem conv_mono (c : Session) {m n : Nat} (h : m ≤ n) : Session.conv c m ≤ Session.conv c n := by
  by_cases h0 : c.convDen = 0
  · rw [conv_of_zero h0, conv_of_zero h0]
    exact convUnstated_mono _ h
  · rw [conv_of_pos h0, conv_of_pos h0]
    exact Nat.div_le_div_right (Nat.mul_le_mul_right _ h)

/-! ## The controller devices -/

theorem devLines_of_not_tap {ds : Vector Device 15} {p : Fin 3} (h : ds[direct p].type ≠ .tap) (new : Byte) :
    devLines p new ds = ds.set (direct p) (plainLines new ds[direct p]) := if_neg h

theorem devLines_of_tap {ds : Vector Device 15} {p : Fin 3} (h : ds[direct p].type = .tap) (new : Byte) :
    devLines p new ds = (ds.set (direct p) (tapSelect new ds[direct p])).set
      (member p (tapSelect new ds[direct p]).counter)
      (plainLines new (ds.set (direct p) (tapSelect new ds[direct p]))[member p (tapSelect new ds[direct p]).counter]) :=
  if_pos h

theorem direct_val (p : Fin 3) : (direct p).val = p.val := rfl

theorem member_val (p : Fin 3) (m : BitVec 4) : (member p m).val = 3 + 4 * p.val + m.toNat % 4 := rfl

theorem member_ne_direct (p : Fin 3) (m : BitVec 4) (q : Fin 3) : member p m ≠ direct q := by
  intro h
  have := congrArg Fin.val h
  rw [member_val, direct_val] at this
  omega

/-- What new levels leave of a record: only its engine's own fields move (44_io_devices.md R273). -/
theorem plainLines_frame (new : Byte) (d : Device) :
    (plainLines new d).type = d.type ∧ (plainLines new d).buttons = d.buttons ∧
    (plainLines new d).serCtrl = d.serCtrl ∧ (plainLines new d).serLastTx = d.serLastTx ∧
    (plainLines new d).lastLines = new := by
  obtain ⟨t, _, _, _, _, _, _, _, _, _, _, _⟩ := d
  cases t <;> simp only [plainLines, pad6Edge, mouseEdge, mouseSample] <;> (repeat' split) <;> simp_all

theorem tapSelect_frame (new : Byte) (d : Device) :
    tapSelect new d = { d with lastLines := new, counter := (tapSelect new d).counter } := rfl

/-- Record `v` after new levels on port `p`: the selected member's reaction, the direct device's, or what it was. -/
theorem getElem_devLines (p : Fin 3) (new : Byte) (ds : Vector Device 15) (v : Fin 15) :
    (devLines p new ds)[v] =
      if ds[direct p].type = .tap then
        if v = direct p then tapSelect new ds[direct p]
        else if v = member p (tapSelect new ds[direct p]).counter then plainLines new ds[v]
        else ds[v]
      else if v = direct p then plainLines new ds[direct p] else ds[v] := by
  split
  · next h =>
    have hne := member_ne_direct p (tapSelect new ds[direct p]).counter p
    rw [devLines_of_tap h, getElem_set_fin, getElem_set_fin, getElem_set_fin, if_neg hne]
    by_cases h1 : v = direct p
    · rw [if_pos h1, if_pos h1, if_neg fun e => hne (e.symm.trans h1)]
    · rw [if_neg h1, if_neg h1]
      by_cases h2 : v = member p (tapSelect new ds[direct p]).counter
      · rw [if_pos h2, if_pos h2, ← h2]
      · rw [if_neg h2, if_neg h2]
  · next h => rw [devLines_of_not_tap h, getElem_set_fin]

/-- No record's type, buttons or serial registers move with the lines. -/
theorem devLines_frame (p : Fin 3) (new : Byte) (ds : Vector Device 15) (v : Fin 15) :
    (devLines p new ds)[v].type = ds[v].type ∧ (devLines p new ds)[v].buttons = ds[v].buttons ∧
    (devLines p new ds)[v].serCtrl = ds[v].serCtrl ∧ (devLines p new ds)[v].serLastTx = ds[v].serLastTx := by
  have h := plainLines_frame new ds[v]
  rw [getElem_devLines]
  (repeat' split) <;> first
    | exact ⟨h.1, h.2.1, h.2.2.1, h.2.2.2.1⟩
    | (next hv => subst hv; exact ⟨h.1, h.2.1, h.2.2.1, h.2.2.2.1⟩)
    | (next hv => subst hv; simp [tapSelect])
    | simp

/-- A port write hands the levels on, and changes the port and the devices only. -/
theorem portUpdate_eq (p : Fin 3) (s : State) :
    portUpdate p s = { s with devices := devLines p (s.port p).lines s.devices } := rfl

/-- Bit `b` of the levels a port drives (43_io_ports.md R220). -/
theorem getLsbD_lines (x : Port) {b : Nat} (h : b < 8) :
    x.lines.getLsbD b = if x.ctrl.getLsbD b then x.dout.getLsbD b else true := by
  simp only [Port.lines, BitVec.getLsbD_or, BitVec.getLsbD_and, BitVec.getLsbD_not, h, decide_true, Bool.true_and]
  cases x.ctrl.getLsbD b <;> simp

/-- Bit `b` of what a data register reads (R216). -/
theorem getLsbD_readData (p : Fin 3) (s : State) {b : Nat} (h : b < 8) :
    (readData p s).getLsbD b =
      if (s.port p).ctrl.getLsbD b then (s.port p).dout.getLsbD b else (devData s.devices p).getLsbD b := by
  simp only [readData, BitVec.getLsbD_or, BitVec.getLsbD_and, BitVec.getLsbD_not, h, decide_true, Bool.true_and]
  cases (s.port p).ctrl.getLsbD b <;> simp

/-! ## The environment calls -/

/-- A tap may sit on a direct port only (10_state.md R39). -/
theorem typeAllowed_iff (v : Fin 15) (t : DevType) : typeAllowed v t = true ↔ (t = .tap → v.val ≤ 2) := by
  cases t <;> simp [typeAllowed]

theorem getLsbD_keyMaskBelow (k : KeyRow) (nb : Nat) (code : BitVec 16) (n : Nat) (hn : n ≤ 12) (i : Fin 12) :
    (keyMaskBelow k nb code n).getLsbD i.val = decide (i.val < n ∧ i.val < nb ∧ k[i] = code) := by
  induction n with
  | zero => simp [keyMaskBelow]
  | succ n ih =>
    have h12 : n < 12 := by omega
    simp only [keyMaskBelow, BitVec.getLsbD_or, ih (by omega), dif_pos h12]
    have hb : ∀ j : Fin 12, (1#12 <<< n).getLsbD j.val = decide (j.val = n) := by
      intro j
      rw [BitVec.getLsbD_shiftLeft]
      rcases Nat.lt_trichotomy j.val n with hlt | heq | hgt
      · simp [hlt, Nat.ne_of_lt hlt]
      · simp [heq, h12]
      · simp only [j.isLt, decide_true, Nat.not_lt.mpr (Nat.le_of_lt hgt), decide_false, Bool.not_false, Bool.true_and,
          BitVec.getLsbD_one]
        simp only [show ¬ (j.val - n = 0) by omega, show j.val ≠ n by omega, decide_false, Bool.and_false]
    by_cases hi : i.val = n
    · by_cases hc : n < nb ∧ k[n] = code
      · rw [if_pos hc, hb i]
        have : k[i] = code := by simpa [hi] using hc.2
        simp [hi, hc.1, this]
      · rw [if_neg hc]
        have : ¬ (i.val < nb ∧ k[i] = code) := by simpa [hi] using hc
        simp only [BitVec.getLsbD_zero, Bool.or_false, decide_eq_decide]
        constructor
        · rintro ⟨h1, h2⟩; exact absurd h2 this
        · rintro ⟨h1, h2⟩; exact absurd h2 this
    · have hz : (if n < nb ∧ k[n] = code then 1#12 <<< n else 0#12).getLsbD i.val = false := by
        split
        · rw [hb i]; simp [hi]
        · simp
      rw [hz, Bool.or_false, decide_eq_decide]
      constructor
      · rintro ⟨h1, h2⟩; exact ⟨by omega, h2⟩
      · rintro ⟨h1, h2⟩; exact ⟨by omega, h2⟩

/-- The buttons a key drives: those below the device's count that carry its code (45_host_ops.md R314). -/
theorem getLsbD_keyMask (k : KeyRow) (t : DevType) (code : BitVec 16) (i : Fin 12) :
    (keyMask k t code).getLsbD i.val = decide (i.val < nbtn t ∧ k[i] = code) := by
  rw [keyMask, getLsbD_keyMaskBelow k _ code 12 (Nat.le_refl 12) i]
  simp

/-- One button after a key event. -/
theorem getLsbD_key (d : Device) (k : KeyRow) (code : BitVec 16) (down : Bool) (i : Fin 12) :
    (d.key k code down).buttons.getLsbD i.val =
      if i.val < nbtn d.type ∧ k[i] = code then decide (down = true ↔ d.type = .mouse) else d.buttons.getLsbD i.val := by
  have hm := getLsbD_keyMask k d.type code i
  have key : (d.key k code down).buttons =
      if down = (d.type == .mouse) then d.buttons ||| keyMask k d.type code else d.buttons &&& ~~~keyMask k d.type code :=
    rfl
  by_cases hc : i.val < nbtn d.type ∧ k[i] = code
  · rw [decide_eq_true hc] at hm
    rw [if_pos hc, key]
    by_cases ht : d.type = .mouse <;> cases down <;> simp [ht] at hm ⊢ <;> simp [hm]
  · rw [decide_eq_false hc] at hm
    rw [if_neg hc, key]
    by_cases ht : d.type = .mouse <;> cases down <;> simp [ht] at hm ⊢ <;> simp [hm]

end Sys2Proof.Machine
end

