-- ==== Sys2Proof/Laws/Mapper.lean ====
section
/-! SUPPORT. The laws of the cartridge mapper: the fields of a cartridge address and of an auxiliary index as numbers, which
store an address selects, what reads after a save write, and the selector write as a register on the LO lane. -/

namespace Sys2Proof.Machine

theorem toNat_window (c : Addr) : (c.extractLsb' 19 3).toFin.val = c.toNat / 0x80000 % 8 := by
  rw [BitVec.val_toFin, BitVec.extractLsb'_toNat, Nat.shiftRight_eq_div_pow]

theorem toNat_inWindow (c : Addr) : (c.extractLsb' 0 19).toNat = c.toNat % 0x80000 := by
  rw [BitVec.extractLsb'_toNat, Nat.shiftRight_zero]

theorem toNat_auxWindow (a : Addr) : ((auxIndex a).extractLsb' 1 3).toNat = a.toNat / 2 % 8 := by
  simp only [auxIndex, BitVec.extractLsb'_toNat, Nat.shiftRight_eq_div_pow]; omega

theorem toNat_auxRow (a : Addr) : ((auxIndex a).extractLsb' 4 4).toNat = a.toNat / 16 % 16 := by
  simp only [auxIndex, BitVec.extractLsb'_toNat, Nat.shiftRight_eq_div_pow]; omega

theorem auxIndex_bit0 (a : Addr) : (auxIndex a).getLsbD 0 = onLoLane a := by simp [auxIndex, onLoLane]

/-- A page is one of the image's exactly when its first byte is. -/
theorem lt_pages_iff (r : RomImage) (q : Nat) : q < pages r ↔ q * 0x80000 < r.len := by
  simp only [pages]; omega

/-- The page a window shows (R165). -/
theorem effectivePage_eq (r : RomImage) (pm : Vector (BitVec 6) 8) (w : Fin 8) :
    effectivePage r pm w = if pm[w].toNat * 0x80000 < r.len then pm[w].toNat else w.val :=
  if_congr (lt_pages_iff r _) rfl rfl

/-- BANKED resolution of an address inside the eight windows (R165). -/
theorem resolveBanked_eq (r : RomImage) (pm : Vector (BitVec 6) 8) {c : Addr} {w : Fin 8} (h : c.toNat / 0x80000 = w.val) :
    resolveBanked r pm c = romAt r (effectivePage r pm w * 0x80000 + c.toNat % 0x80000) := by
  have hw := w.isLt
  have e : (c.extractLsb' 19 3).toFin = w := Fin.ext ((toNat_window c).trans (by rw [h]; exact Nat.mod_eq_of_lt hw))
  rw [resolveBanked, if_neg (by omega), e, toNat_inWindow]

/-- BANKED resolution beyond the windows (R165). -/
theorem resolveBanked_flat (r : RomImage) (pm : Vector (BitVec 6) 8) {c : Addr} (h : 8 ≤ c.toNat / 0x80000) :
    resolveBanked r pm c = romAt r c.toNat := by
  rw [resolveBanked, if_pos (by omega)]

/-- The store and index an address selects (41_cartridge_mapper.md R162). -/
theorem saveSel_eq_some_iff (x : Session) (c : Addr) (st : Store) (i : Nat) :
    Session.saveSel x c = some (st, i) ↔
      (x.eepEn = true ∧ x.eepStart ≤ c.toNat ∧ c.toNat ≤ x.eepEnd ∧ st = .eep ∧ i = c.toNat - x.eepStart) ∨
      (¬ (x.eepEn = true ∧ x.eepStart ≤ c.toNat ∧ c.toNat ≤ x.eepEnd) ∧
        x.sramEn = true ∧ x.sramStart ≤ c.toNat ∧ c.toNat ≤ x.sramEnd ∧ st = .sram ∧ i = c.toNat - x.sramStart) := by
  by_cases h : x.eepEn = true ∧ x.eepStart ≤ c.toNat ∧ c.toNat ≤ x.eepEnd
  · rw [Session.saveSel, if_pos h, Option.some.injEq, Prod.mk.injEq]
    constructor
    · rintro ⟨rfl, rfl⟩; exact .inl ⟨h.1, h.2.1, h.2.2, rfl, rfl⟩
    · rintro (⟨_, _, _, rfl, rfl⟩ | ⟨h', _⟩)
      · exact ⟨rfl, rfl⟩
      · exact absurd h h'
  · rw [Session.saveSel, if_neg h]
    by_cases h' : x.sramEn = true ∧ x.sramStart ≤ c.toNat ∧ c.toNat ≤ x.sramEnd
    · rw [if_pos h', Option.some.injEq, Prod.mk.injEq]
      constructor
      · rintro ⟨rfl, rfl⟩; exact .inr ⟨h, h'.1, h'.2.1, h'.2.2, rfl, rfl⟩
      · rintro (⟨h1, h2, h3, _⟩ | ⟨_, _, _, _, rfl, rfl⟩)
        · exact absurd ⟨h1, h2, h3⟩ h
        · exact ⟨rfl, rfl⟩
    · rw [if_neg h']
      constructor
      · rintro ⟨⟩
      · rintro (⟨h1, h2, h3, _⟩ | ⟨_, h1, h2, h3, _⟩)
        · exact absurd ⟨h1, h2, h3⟩ h
        · exact absurd ⟨h1, h2, h3⟩ h'

/-- An index a store is selected at lies inside the store. -/
theorem saveSel_lt {x : Session} {c : Addr} {st : Store} {i : Nat} (h : Session.saveSel x c = some (st, i)) :
    (st = .sram → i < x.sramLen) ∧ (st = .eep → i < x.eepLen) := by
  rcases (saveSel_eq_some_iff ..).mp h with ⟨_, h1, h2, rfl, rfl⟩ | ⟨_, _, h1, h2, rfl, rfl⟩ <;>
    constructor <;> intro e <;>
    first | exact absurd e (by decide) | (simp only [Session.sramLen, Session.eepLen]; omega)

/-- Two addresses that select the same byte of the same store are one address. -/
theorem saveSel_inj {x : Session} {c c' : Addr} {p : Store × Nat} (h : Session.saveSel x c = some p)
    (h' : Session.saveSel x c' = some p) : c = c' := by
  obtain ⟨st, i⟩ := p
  apply BitVec.eq_of_toNat_eq
  rcases (saveSel_eq_some_iff ..).mp h with ⟨_, _, _, rfl, rfl⟩ | ⟨_, _, _, _, rfl, rfl⟩ <;>
    rcases (saveSel_eq_some_iff ..).mp h' with ⟨_, _, _, h1, h2⟩ | ⟨_, _, _, _, h1, h2⟩ <;>
    first | omega | cases h1

/-- Outside every save window, and without a quirk, a cartridge write changes nothing (R171). -/
theorem cmWriteByte_eq (c : Addr) (v : Byte) (s : State) :
    cmWriteByte c v s =
      match Session.saveSel s.session c, s.mapper with
      | some (st, i), _ => s.setStoreByte st i v
      | none, .quirk q => { s with mapper := .quirk { q with state := Config.quirkWrite q.hooks q.state c v } }
      | none, _ => s := by
  simp only [cmWriteByte]
  split <;> simp only [*]
  split <;> simp_all [State.withMapper]

/-- A cartridge write keeps the canonical form of the save stores. -/
theorem cmWriteByte_wf (c : Addr) (v : Byte) (s : State)
    (h : s.sram.wf (some 0xFF#8) s.session.sramLen = true ∧ s.eep.wf (some 0xFF#8) s.session.eepLen = true) :
    (cmWriteByte c v s).sram.wf (some 0xFF#8) s.session.sramLen = true ∧
    (cmWriteByte c v s).eep.wf (some 0xFF#8) s.session.eepLen = true := by
  rw [cmWriteByte_eq]
  split
  · next hs => exact State.setStoreByte_wf s (saveSel_lt hs) v h
  · exact h
  · exact h

/-- Reading the cartridge after a byte went into a save window (R162, R168, R171). -/
theorem cmReadByte_setStoreByte {s : State} {c : Addr} {st : Store} {i : Nat}
    (h : Session.saveSel s.session c = some (st, i)) (v : Byte) (c' : Addr) :
    cmReadByte (s.setStoreByte st i v) c' = if c' = c then v else cmReadByte s c' := by
  have hse : (s.setStoreByte st i v).session = s.session := by cases st <;> rfl
  have hrs : resolve (s.setStoreByte st i v) c' = resolve s c' := by cases st <;> rfl
  simp only [cmReadByte, hse]
  cases hc : Session.saveSel s.session c' with
  | none =>
    have : c' ≠ c := by rintro rfl; rw [hc] at h; cases h
    simp only [hrs, if_neg this]
  | some y =>
    obtain ⟨st', j⟩ := y
    simp only [State.storeByte_setStoreByte]
    by_cases e : c' = c
    · subst e
      rw [hc] at h
      cases h
      simp
    · rw [if_neg e, if_neg]
      rintro ⟨rfl, rfl⟩
      exact e (saveSel_inj hc h)

/-- A selector write, as the write of a register on the LO lane of its word (R176). -/
theorem pselWrite_eq (a : Addr) (v : Byte) (s : State) :
    pselWrite (auxIndex a) v s =
      toLoRegister (fun v t =>
        if a.toNat / 2 % 8 = 0 then t else t.setPage ⟨a.toNat / 2 % 8, by omega⟩ (v.extractLsb' 0 6)) a v s := by
  simp only [pselWrite, toLoRegister, auxIndex_bit0]
  cases onLoLane a
  · rfl
  · simp only [Bool.true_eq_false, if_false, if_true]
    by_cases h0 : a.toNat / 2 % 8 = 0
    · rw [if_pos h0, if_pos]
      apply BitVec.eq_of_toNat_eq
      rw [toNat_auxWindow, h0]
      rfl
    · rw [if_neg h0, if_neg]
      · congr 1
        exact Fin.ext ((BitVec.val_toFin _).trans (toNat_auxWindow a))
      · intro h
        apply h0
        rw [← toNat_auxWindow, h]
        rfl

end Sys2Proof.Machine
end

