-- ==== Sys2Proof/Laws/PerInstr.lean ====
section
/-! SUPPORT. Statements about every operation as syntax, one lemma per constructor. `EncodedForm`: the fields of the word
that spells an operation (30_encoding.md R100 to R102). -/

namespace Sys2Proof.Laws.EncodedForm

/-- The word of an operation: an environment call has class 1; a bus transaction has class 0 and `ZERO` 00 (bits 31 to 26
are 0), `WR` in bit 25 and `SZ` in bit 24. -/
def Statement (i : Instr) : Prop :=
  (i.isCall = true → (encode i).opw.extractLsb' 28 4 = 1#4) ∧
  (i.isCall = false →
    (encode i).opw.extractLsb' 26 6 = 0#6 ∧
    (encode i).opw.getLsbD 25 = !i.isRead ∧
    (encode i).opw.getLsbD 24 = decide (i.size = some .word))

theorem busWord_fields (wr : Bool) (sz : Size) (a : Addr) :
    (busWord wr sz a).extractLsb' 26 6 = 0#6 ∧ (busWord wr sz a).getLsbD 25 = wr ∧
    (busWord wr sz a).getLsbD 24 = decide (sz = .word) := by
  have h : ∀ (x : BitVec 8) (j : Nat), (x ++ a).getLsbD (24 + j) = x.getLsbD j := by
    intro x j
    rw [BitVec.getLsbD_append, if_neg (by omega), show 24 + j - 24 = j by omega]
  have hx : ∃ x : BitVec 8, busWord wr sz a = x ++ a ∧ x.toNat < 4 ∧ x.getLsbD 1 = wr ∧
      x.getLsbD 0 = decide (sz = .word) := by
    cases wr <;> cases sz <;> exact ⟨_, rfl, by decide, by decide, by decide⟩
  obtain ⟨x, e, h4, h1, h0⟩ := hx
  rw [e]
  refine ⟨?_, (h x 1).trans h1, (h x 0).trans h0⟩
  apply BitVec.eq_of_getLsbD_eq
  intro i hi
  have hp : 2 ^ 2 ≤ 2 ^ (2 + i) := Nat.pow_le_pow_right (by decide) (Nat.le_add_right 2 i)
  rw [BitVec.getLsbD_extractLsb', show 26 + i = 24 + (2 + i) by omega, h, BitVec.getLsbD_zero,
    BitVec.getLsbD, Nat.testBit_lt_two_pow (Nat.lt_of_lt_of_le h4 hp), Bool.and_false]

theorem envWord_class (c : Byte) (x : BitVec 20) : (envWord c x).extractLsb' 28 4 = 1#4 := by
  apply BitVec.eq_of_getLsbD_eq
  intro i hi
  simp only [BitVec.getLsbD_extractLsb', hi, decide_true, Bool.true_and, envWord, BitVec.getLsbD_append]
  rw [if_neg (by omega), if_neg (by omega)]
  congr 1
  omega

theorem of_read {i : Instr} (sz : Size) (a : Addr) (hw : (encode i).opw = busWord false sz a) (hc : i.isCall = false)
    (hr : i.isRead = true) (hs : i.size = some sz) : Statement i := by
  refine ⟨fun h => absurd (hc.symm.trans h) Bool.false_ne_true, fun _ => ?_⟩
  obtain ⟨h1, h2, h3⟩ := busWord_fields false sz a
  rw [hw, hr, hs]
  exact ⟨h1, h2, h3.trans (by cases sz <;> rfl)⟩

theorem of_write {i : Instr} (sz : Size) (a : Addr) (hw : (encode i).opw = busWord true sz a) (hc : i.isCall = false)
    (hr : i.isRead = false) (hs : i.size = some sz) : Statement i := by
  refine ⟨fun h => absurd (hc.symm.trans h) Bool.false_ne_true, fun _ => ?_⟩
  obtain ⟨h1, h2, h3⟩ := busWord_fields true sz a
  rw [hw, hr, hs]
  exact ⟨h1, h2, h3.trans (by cases sz <;> rfl)⟩

theorem of_call {i : Instr} {c : Byte} {x : BitVec 20} (hw : (encode i).opw = envWord c x) (hc : i.isCall = true) :
    Statement i :=
  ⟨fun _ => hw ▸ envWord_class c x, fun h => absurd (hc.symm.trans h) Bool.noConfusion⟩

theorem pselWr (sz : Size) (addr : Addr) (data : Word) : Statement (.pselWr sz addr data) :=
  of_write sz addr rfl rfl rfl rfl
theorem auxRd (sz : Size) (addr : Addr) : Statement (.auxRd sz addr) :=
  of_read sz addr rfl rfl rfl rfl
theorem auxWr (sz : Size) (addr : Addr) (data : Word) : Statement (.auxWr sz addr data) :=
  of_write sz addr rfl rfl rfl rfl
theorem secRdb (addr : Addr) : Statement (.secRdb addr) :=
  of_read .byte addr rfl rfl rfl rfl
theorem secRdw (addr : Addr) : Statement (.secRdw addr) :=
  of_read .word addr rfl rfl rfl rfl
theorem secWrb (addr : Addr) (data : Word) : Statement (.secWrb addr data) :=
  of_write .byte addr rfl rfl rfl rfl
theorem secWrw (addr : Addr) (data : Word) : Statement (.secWrw addr data) :=
  of_write .word addr rfl rfl rfl rfl
theorem versionRd (sz : Size) (addr : Addr) : Statement (.versionRd sz addr) :=
  of_read sz addr rfl rfl rfl rfl
theorem versionWr (sz : Size) (addr : Addr) (data : Word) : Statement (.versionWr sz addr data) :=
  of_write sz addr rfl rfl rfl rfl
theorem data1Rd (sz : Size) (addr : Addr) : Statement (.data1Rd sz addr) :=
  of_read sz addr rfl rfl rfl rfl
theorem data1Wr (sz : Size) (addr : Addr) (data : Word) : Statement (.data1Wr sz addr data) :=
  of_write sz addr rfl rfl rfl rfl
theorem data2Rd (sz : Size) (addr : Addr) : Statement (.data2Rd sz addr) :=
  of_read sz addr rfl rfl rfl rfl
theorem data2Wr (sz : Size) (addr : Addr) (data : Word) : Statement (.data2Wr sz addr data) :=
  of_write sz addr rfl rfl rfl rfl
theorem data3Rd (sz : Size) (addr : Addr) : Statement (.data3Rd sz addr) :=
  of_read sz addr rfl rfl rfl rfl
theorem data3Wr (sz : Size) (addr : Addr) (data : Word) : Statement (.data3Wr sz addr data) :=
  of_write sz addr rfl rfl rfl rfl
theorem ctrl1Rd (sz : Size) (addr : Addr) : Statement (.ctrl1Rd sz addr) :=
  of_read sz addr rfl rfl rfl rfl
theorem ctrl1Wr (sz : Size) (addr : Addr) (data : Word) : Statement (.ctrl1Wr sz addr data) :=
  of_write sz addr rfl rfl rfl rfl
theorem ctrl2Rd (sz : Size) (addr : Addr) : Statement (.ctrl2Rd sz addr) :=
  of_read sz addr rfl rfl rfl rfl
theorem ctrl2Wr (sz : Size) (addr : Addr) (data : Word) : Statement (.ctrl2Wr sz addr data) :=
  of_write sz addr rfl rfl rfl rfl
theorem ctrl3Rd (sz : Size) (addr : Addr) : Statement (.ctrl3Rd sz addr) :=
  of_read sz addr rfl rfl rfl rfl
theorem ctrl3Wr (sz : Size) (addr : Addr) (data : Word) : Statement (.ctrl3Wr sz addr data) :=
  of_write sz addr rfl rfl rfl rfl
theorem txdata1Rd (sz : Size) (addr : Addr) : Statement (.txdata1Rd sz addr) :=
  of_read sz addr rfl rfl rfl rfl
theorem txdata1Wr (sz : Size) (addr : Addr) (data : Word) : Statement (.txdata1Wr sz addr data) :=
  of_write sz addr rfl rfl rfl rfl
theorem rxdata1Rd (sz : Size) (addr : Addr) : Statement (.rxdata1Rd sz addr) :=
  of_read sz addr rfl rfl rfl rfl
theorem rxdata1Wr (sz : Size) (addr : Addr) (data : Word) : Statement (.rxdata1Wr sz addr data) :=
  of_write sz addr rfl rfl rfl rfl
theorem sctrl1Rd (sz : Size) (addr : Addr) : Statement (.sctrl1Rd sz addr) :=
  of_read sz addr rfl rfl rfl rfl
theorem sctrl1Wr (sz : Size) (addr : Addr) (data : Word) : Statement (.sctrl1Wr sz addr data) :=
  of_write sz addr rfl rfl rfl rfl
theorem txdata2Rd (sz : Size) (addr : Addr) : Statement (.txdata2Rd sz addr) :=
  of_read sz addr rfl rfl rfl rfl
theorem txdata2Wr (sz : Size) (addr : Addr) (data : Word) : Statement (.txdata2Wr sz addr data) :=
  of_write sz addr rfl rfl rfl rfl
theorem rxdata2Rd (sz : Size) (addr : Addr) : Statement (.rxdata2Rd sz addr) :=
  of_read sz addr rfl rfl rfl rfl
theorem rxdata2Wr (sz : Size) (addr : Addr) (data : Word) : Statement (.rxdata2Wr sz addr data) :=
  of_write sz addr rfl rfl rfl rfl
theorem sctrl2Rd (sz : Size) (addr : Addr) : Statement (.sctrl2Rd sz addr) :=
  of_read sz addr rfl rfl rfl rfl
theorem sctrl2Wr (sz : Size) (addr : Addr) (data : Word) : Statement (.sctrl2Wr sz addr data) :=
  of_write sz addr rfl rfl rfl rfl
theorem txdata3Rd (sz : Size) (addr : Addr) : Statement (.txdata3Rd sz addr) :=
  of_read sz addr rfl rfl rfl rfl
theorem txdata3Wr (sz : Size) (addr : Addr) (data : Word) : Statement (.txdata3Wr sz addr data) :=
  of_write sz addr rfl rfl rfl rfl
theorem rxdata3Rd (sz : Size) (addr : Addr) : Statement (.rxdata3Rd sz addr) :=
  of_read sz addr rfl rfl rfl rfl
theorem rxdata3Wr (sz : Size) (addr : Addr) (data : Word) : Statement (.rxdata3Wr sz addr data) :=
  of_write sz addr rfl rfl rfl rfl
theorem sctrl3Rd (sz : Size) (addr : Addr) : Statement (.sctrl3Rd sz addr) :=
  of_read sz addr rfl rfl rfl rfl
theorem sctrl3Wr (sz : Size) (addr : Addr) (data : Word) : Statement (.sctrl3Wr sz addr data) :=
  of_write sz addr rfl rfl rfl rfl
theorem busreqRd (sz : Size) (addr : Addr) (clk : Clk) : Statement (.busreqRd sz addr clk) :=
  of_read sz addr rfl rfl rfl rfl
theorem busreqWr (sz : Size) (addr : Addr) (data : Word) (clk : Clk) : Statement (.busreqWr sz addr data clk) :=
  of_write sz addr rfl rfl rfl rfl
theorem sresetRd (sz : Size) (addr : Addr) : Statement (.sresetRd sz addr) :=
  of_read sz addr rfl rfl rfl rfl
theorem sresetWr (sz : Size) (addr : Addr) (data : Word) : Statement (.sresetWr sz addr data) :=
  of_write sz addr rfl rfl rfl rfl
theorem ioinvRd (sz : Size) (addr : Addr) : Statement (.ioinvRd sz addr) :=
  of_read sz addr rfl rfl rfl rfl
theorem ioinvWr (sz : Size) (addr : Addr) (data : Word) : Statement (.ioinvWr sz addr data) :=
  of_write sz addr rfl rfl rfl rfl
theorem vidRd (sz : Size) (addr : Addr) : Statement (.vidRd sz addr) :=
  of_read sz addr rfl rfl rfl rfl
theorem vidWr (sz : Size) (addr : Addr) (data : Word) : Statement (.vidWr sz addr data) :=
  of_write sz addr rfl rfl rfl rfl
theorem vidinvRd (sz : Size) (addr : Addr) : Statement (.vidinvRd sz addr) :=
  of_read sz addr rfl rfl rfl rfl
theorem vidinvWr (sz : Size) (addr : Addr) (data : Word) : Statement (.vidinvWr sz addr data) :=
  of_write sz addr rfl rfl rfl rfl
theorem romRd (sz : Size) (region : Fin 5) (addr : Addr) : Statement (.romRd sz region addr) :=
  of_read sz addr rfl rfl rfl rfl
theorem romWr (sz : Size) (region : Fin 5) (addr : Addr) (data : Word) : Statement (.romWr sz region addr data) :=
  of_write sz addr rfl rfl rfl rfl
theorem unusedRd (sz : Size) (addr : Addr) : Statement (.unusedRd sz addr) :=
  of_read sz addr rfl rfl rfl rfl
theorem unusedWr (sz : Size) (addr : Addr) (data : Word) : Statement (.unusedWr sz addr data) :=
  of_write sz addr rfl rfl rfl rfl
theorem ramRd (sz : Size) (addr : Addr) : Statement (.ramRd sz addr) :=
  of_read sz addr rfl rfl rfl rfl
theorem ramWr (sz : Size) (addr : Addr) (data : Word) : Statement (.ramWr sz addr data) :=
  of_write sz addr rfl rfl rfl rfl
theorem poweron (config : PowerConfig) : Statement (.poweron config) :=
  of_call rfl rfl
theorem scanline : Statement (.scanline) :=
  of_call rfl rfl
theorem settype (v : BitVec 4) (t : Byte) : Statement (.settype v t) :=
  of_call rfl rfl
theorem setkeymap (v : BitVec 4) (keys : List (BitVec 16)) : Statement (.setkeymap v keys) :=
  of_call rfl rfl
theorem keydown (code : BitVec 16) : Statement (.keydown code) :=
  of_call rfl rfl
theorem keyup (code : BitVec 16) : Statement (.keyup code) :=
  of_call rfl rfl
theorem mousemove (v : BitVec 4) (dx dy : BitVec 16) : Statement (.mousemove v dx dy) :=
  of_call rfl rfl
theorem getstate : Statement (.getstate) :=
  of_call rfl rfl
theorem setstate (sv : Machine.Saved) : Statement (.setstate sv) :=
  of_call rfl rfl

end Sys2Proof.Laws.EncodedForm
end

