-- ==== Sys2Proof/Tests/Slice0.lean ====
section
/-! SUPPORT. The model's own tests. Expected values come from spec/95_test_vectors.md (V<n> and P<n> below), from
spec/30_encoding.md for the words, or from the rule named. A theorem named `test_meets_…` shows that the hypotheses of
the statement so named can hold together, each clause of it by one. -/

namespace Sys2Proof.Tests

open Machine

/-! ## Helpers -/

/-- A field of the state an operation leaves. -/
def after {α : Type} (f : State → α) (o : Host.Outcome State Fault Refusal) : Option α :=
  match o with
  | .next t => some (f t)
  | .fault _ => none
  | .refused _ => none

/-- What an operation returned. -/
def returned (o : Host.Outcome State Fault Refusal) : Option Result := after State.result o

/-- The reason an operation was refused. -/
def refusal (o : Host.Outcome State Fault Refusal) : Option Refusal :=
  match o with
  | .next _ => none
  | .fault _ => none
  | .refused r => some r

/-- The power-on state with another image and mapper. -/
def cart (m : Mapper) (r : RomImage) : State :=
  { State.reset with mapper := m, session := { Session.default with rom := r } }

/-- The image of V3.1: 00 FF 12 34 and 12 zero bytes. -/
def rom16 : RomImage := ⟨16, [(1, 0xFF#8), (2, 0x12#8), (3, 0x34#8)]⟩

/-- The bytes V3.8 to V3.16 look at of an image of 64 KB with `ROM[i] = i mod 256`. -/
def rom64k : RomImage :=
  ⟨0x10000, [(1, 1#8), (3, 3#8), (4, 4#8), (5, 5#8), (8, 8#8), (9, 9#8), (0xFFFE, 0xFE#8), (0xFFFF, 0xFF#8)]⟩

/-- The image of V4: four pages that begin with `0xA0 + g`, `0x50 + g`. -/
def romPages : RomImage :=
  ⟨0x200000, [(0, 0xA0#8), (1, 0x50#8), (0x80000, 0xA1#8), (0x80001, 0x51#8), (0x100000, 0xA2#8), (0x100001, 0x52#8),
    (0x180000, 0xA3#8), (0x180001, 0x53#8)]⟩

/-- V3.9's session: constants 11 22 33 44 55 66 77 88, bits 0 and 2 masked. -/
def fixedConst : State :=
  { cart .fixedConst rom64k with session := { Session.default with
      rom := rom64k
      fc := [⟨true, 0x11#8⟩, ⟨false, 0x22#8⟩, ⟨true, 0x33#8⟩, ⟨false, 0x44#8⟩, ⟨false, 0x55#8⟩, ⟨false, 0x66#8⟩,
        ⟨false, 0x77#8⟩, ⟨false, 0x88#8⟩] } }

/-- V3.13's session: battery RAM enabled, and a store with 0x77 at index 1. -/
def saves : State :=
  { cart .flat rom64k with
    session := { Session.default with rom := rom64k, sramEn := true }
    sram := [(1, 0x77#8)] }

/-- A QUIRK cartridge. -/
def quirky : State := cart (.quirk ⟨7, [1#8]⟩) rom16

/-- A selector changed. -/
def paged (w : Fin 8) (x : BitVec 6) : State := (cart .banked romPages).setPage w x

/-- The arbiter's lines as given, the last stop edge at cycle 1000 with the secondary running. -/
def lines (req rst : Bool) : State := { State.reset with arb := ⟨req, rst, 1000, true⟩ }

/-- The frame of V5: `priTarget = 3000`, `secTarget = 1400`. -/
def at' (priNow secOdo : Nat) : Clk := ⟨priNow, 3000, 1400, secOdo⟩

/-- A port and its direct device put in the power-on state. -/
def plugged (p : Fin 3) (ctrl dout : Byte) (d : Device) : State :=
  (State.reset.setPort p ⟨ctrl, dout⟩).setDev (direct p) d

/-- A device with these buttons, this phase and these lines. -/
def dev (t : DevType) (buttons : BitVec 12) (counter : BitVec 4) (last : Byte) : Device :=
  { Device.powerOn t with buttons := buttons, counter := counter, lastLines := last }

/-- A mouse with this motion, idle with TH high. -/
def moved (x y : Int) : Device := { Device.powerOn .mouse with relX := BitVec.ofInt 16 x, relY := BitVec.ofInt 16 y }

/-- A tap on port 1 with this selection and these lines, a PAD3 with `b` on member 0. -/
def tapped (sel : BitVec 4) (last : Byte) (b : BitVec 12) : State :=
  (plugged 0 0x70#8 0x7F#8 (dev .tap 0xFFF#12 sel last)).setDev 3 (dev .pad3 b 0 0xFF#8)

/-- The power-on savestate value with another device. -/
def savedWith (v : Fin 15) (d : Device) : Saved := { Saved.default with devices := Saved.default.devices.set v d }

/-- The key map of P3. -/
def keysP3 : List (BitVec 16) :=
  [0x26#16, 0x28#16, 0x25#16, 0x27#16, 0x53#16, 0x44#16, 0x41#16, 0x0D#16, 0x5A#16, 0x59#16, 0x58#16, 0x4D#16]

/-! ## WellFormed: an ill-formed term for each check -/

/-- A well-formed key list has at most 255 keys (R102: an 8-bit count). -/
theorem test_wf_keys : (Instr.setkeymap 0 (List.replicate 255 1#16)).wf = true ∧
    (Instr.setkeymap 0 (List.replicate 256 1#16)).wf = false := by
  simp [Instr.wf, -List.reduceReplicate]

/-- POWERON with the defaults is well formed. -/
theorem test_wf_poweron : (Instr.poweron PowerConfig.default).wf = true := by decide

/-- An image cell out of order, beyond the image, or 0x00. -/
theorem test_wf_image :
    RomImage.wf ⟨4, [(2, 1#8), (1, 1#8)]⟩ = false ∧ RomImage.wf ⟨4, [(4, 1#8)]⟩ = false ∧
    RomImage.wf ⟨4, [(1, 0#8)]⟩ = false ∧ RomImage.wf ⟨4, [(1, 1#8), (3, 1#8)]⟩ = true ∧
    (Instr.poweron { PowerConfig.default with session := { Session.default with rom := ⟨4, [(4, 1#8)]⟩ } }).wf =
      false := by decide

/-- Prior save contents outside their window. -/
theorem test_wf_prior_saves :
    (Instr.poweron { PowerConfig.default with sram := [(0x10000, 1#8)] }).wf = false ∧
    (Instr.poweron { PowerConfig.default with eep := [(1, 1#8)] }).wf = false := by decide

/-- A savestate value whose stores are out of form. -/
theorem test_wf_saved :
    (Instr.setstate Saved.default).wf = true ∧
    (Instr.setstate { Saved.default with ram := [(0x10000, 1#8)] }).wf = false ∧
    (Instr.setstate { Saved.default with sram := [(0, 0xFF#8)] }).wf = false ∧
    (Instr.setstate { Saved.default with eep := [(1, 0#8)] }).wf = false ∧
    (Instr.setstate { Saved.default with eepLen := 2, eep := [(1, 0#8)] }).wf = true := by decide

/-- A decoded SETSTATE spells its stores in their one form, whatever list the request carries. -/
theorem test_decode_list_form :
    decode BusMap.default .banked ⟨0x10800000#32, { Operands.zero with
        saved := { Saved.default with ram := [(1, 3#8), (0x10000, 1#8), (0, 2#8)], eep := [(0, 0xFF#8), (0, 1#8)] } }⟩ =
      .ok (.setstate { Saved.default with ram := [(0, 2#8), (1, 3#8)] }) := by decide

/-! ## Decode: a word for every constructor, written from its format

BUS words are `CLASS ZERO WR SZ` and six address digits, ENV words `CLASS CALL ARG` (R100 to R102). -/

/-- The cartridge and secondary windows (R104). -/
def wordsWindows : List (Nat × Instr) := [
  (0b0000_00_1_0_1010_0001_0011_0000_1111_0011, .pselWr .byte 0xA130F3#24 0),
  (0b0000_00_1_1_1010_0001_0011_0000_1111_1110, .pselWr .word 0xA130FE#24 0),
  (0b0000_00_0_1_1010_0001_0011_0000_1111_0001, .auxRd .word 0xA130F1#24),
  (0b0000_00_1_0_1010_0001_0011_0000_1110_1111, .auxWr .byte 0xA130EF#24 0),
  (0b0000_00_0_0_1010_0000_1111_1111_1111_1111, .secRdb 0xA0FFFF#24),
  (0b0000_00_0_1_1010_0000_0001_1111_1111_1101, .secRdw 0xA01FFD#24),
  (0b0000_00_1_0_1010_0000_0000_0000_0000_0000, .secWrb 0xA00000#24 0),
  (0b0000_00_1_1_1010_0000_0000_0000_0001_0000, .secWrw 0xA00010#24 0)]

/-- The I/O registers of the version, data and control groups (R107: register index `ADDR[4:1]`). -/
def wordsPorts : List (Nat × Instr) := [
  (0b0000_00_0_1_1010_0001_0000_0000_000_0000_0, .versionRd .word 0xA10000#24),
  (0b0000_00_1_0_1010_0001_0000_0000_000_0000_1, .versionWr .byte 0xA10001#24 0),
  (0b0000_00_0_0_1010_0001_0000_0000_000_0001_1, .data1Rd .byte 0xA10003#24),
  (0b0000_00_1_0_1010_0001_0000_0000_000_0001_1, .data1Wr .byte 0xA10003#24 0),
  (0b0000_00_0_0_1010_0001_0000_0000_000_0010_1, .data2Rd .byte 0xA10005#24),
  (0b0000_00_1_0_1010_0001_0000_0000_000_0010_1, .data2Wr .byte 0xA10005#24 0),
  (0b0000_00_0_0_1010_0001_0000_0000_000_0011_1, .data3Rd .byte 0xA10007#24),
  (0b0000_00_1_0_1010_0001_0000_0000_000_0011_1, .data3Wr .byte 0xA10007#24 0),
  (0b0000_00_0_1_1010_0001_0000_0000_000_0100_0, .ctrl1Rd .word 0xA10008#24),
  (0b0000_00_1_0_1010_0001_0000_0000_000_0100_1, .ctrl1Wr .byte 0xA10009#24 0),
  (0b0000_00_0_1_1010_0001_0000_0000_000_0101_0, .ctrl2Rd .word 0xA1000A#24),
  (0b0000_00_1_0_1010_0001_0000_0000_000_0101_1, .ctrl2Wr .byte 0xA1000B#24 0),
  (0b0000_00_0_1_1010_0001_0000_0000_000_0110_0, .ctrl3Rd .word 0xA1000C#24),
  (0b0000_00_1_0_1010_0001_0000_0000_000_0110_1, .ctrl3Wr .byte 0xA1000D#24 0)]

/-- The serial I/O registers (R107). -/
def wordsSerial : List (Nat × Instr) := [
  (0b0000_00_0_0_1010_0001_0000_0000_000_0111_1, .txdata1Rd .byte 0xA1000F#24),
  (0b0000_00_1_0_1010_0001_0000_0000_000_0111_1, .txdata1Wr .byte 0xA1000F#24 0),
  (0b0000_00_0_0_1010_0001_0000_0000_000_1000_1, .rxdata1Rd .byte 0xA10011#24),
  (0b0000_00_1_0_1010_0001_0000_0000_000_1000_1, .rxdata1Wr .byte 0xA10011#24 0),
  (0b0000_00_0_1_1010_0001_0000_0000_000_1001_0, .sctrl1Rd .word 0xA10012#24),
  (0b0000_00_1_0_1010_0001_0000_0000_000_1001_1, .sctrl1Wr .byte 0xA10013#24 0),
  (0b0000_00_0_0_1010_0001_0000_0000_000_1010_1, .txdata2Rd .byte 0xA10015#24),
  (0b0000_00_1_0_1010_0001_0000_0000_000_1010_1, .txdata2Wr .byte 0xA10015#24 0),
  (0b0000_00_0_0_1010_0001_0000_0000_000_1011_1, .rxdata2Rd .byte 0xA10017#24),
  (0b0000_00_1_0_1010_0001_0000_0000_000_1011_1, .rxdata2Wr .byte 0xA10017#24 0),
  (0b0000_00_0_0_1010_0001_0000_0000_000_1100_1, .sctrl2Rd .byte 0xA10019#24),
  (0b0000_00_1_0_1010_0001_0000_0000_000_1100_1, .sctrl2Wr .byte 0xA10019#24 0),
  (0b0000_00_0_0_1010_0001_0000_0000_000_1101_1, .txdata3Rd .byte 0xA1001B#24),
  (0b0000_00_1_0_1010_0001_0000_0000_000_1101_1, .txdata3Wr .byte 0xA1001B#24 0),
  (0b0000_00_0_0_1010_0001_0000_0000_000_1110_1, .rxdata3Rd .byte 0xA1001D#24),
  (0b0000_00_1_0_1010_0001_0000_0000_000_1110_1, .rxdata3Wr .byte 0xA1001D#24 0),
  (0b0000_00_0_0_1010_0001_0000_0000_000_1111_1, .sctrl3Rd .byte 0xA1001F#24),
  (0b0000_00_1_1_1010_0001_0000_0000_000_1111_1, .sctrl3Wr .word 0xA1001F#24 0)]

/-- The arbiter, the invalid decodes, video, ROM, the unused bank and RAM (R104). -/
def wordsBanks : List (Nat × Instr) := [
  (0b0000_00_0_0_101_0_0001_0001_0001_0000_0000, .busreqRd .byte 0xA11100#24 ⟨0, 0, 0, 0⟩),
  (0b0000_00_1_1_101_0_0001_0001_0001_0000_0001, .busreqWr .word 0xA11101#24 0 ⟨0, 0, 0, 0⟩),
  (0b0000_00_0_1_101_0_0001_0001_0010_0000_0000, .sresetRd .word 0xA11200#24),
  (0b0000_00_1_1_101_0_0001_0001_0010_0000_0000, .sresetWr .word 0xA11200#24 0),
  (0b0000_00_0_0_101_0_0001_0001_0001_0000_0010, .ioinvRd .byte 0xA11102#24),
  (0b0000_00_1_1_101_1_1111_1111_1111_1111_1110, .ioinvWr .word 0xBFFFFE#24 0),
  (0b0000_00_0_1_110_0_1000_1111_1111_0001_1110, .vidRd .word 0xC8FF1E#24),
  (0b0000_00_1_0_110_0_0000_0000_0000_0001_0001, .vidWr .byte 0xC00011#24 0),
  (0b0000_00_0_0_110_0_0000_0000_0000_0010_0000, .vidinvRd .byte 0xC00020#24),
  (0b0000_00_1_1_110_0_0001_0000_0000_0000_0000, .vidinvWr .word 0xC10000#24 0),
  (0b0000_00_0_1_000_0_1000_0000_0000_0000_0000, .romRd .word 0 0x080000#24),
  (0b0000_00_1_0_011_1_1111_1111_1111_1111_1111, .romWr .byte 3 0x7FFFFF#24 0),
  (0b0000_00_0_1_100_1_1111_1111_1111_1111_1111, .unusedRd .word 0x9FFFFF#24),
  (0b0000_00_1_0_100_0_0000_0000_0000_0000_0000, .unusedWr .byte 0x800000#24 0),
  (0b0000_00_0_0_111_0_0001_0000_0001_0000_0001, .ramRd .byte 0xE10101#24),
  (0b0000_00_1_1_111_1_1111_0000_0001_0000_0000, .ramWr .word 0xFF0100#24 0)]

/-- The environment calls (R102). -/
def wordsCalls : List (Nat × Instr) := [
  (0b0001_0000_0000_0000_0000_0000_0000_0000, .poweron PowerConfig.default),
  (0b0001_0000_0001_0000_0000_0000_0000_0000, .scanline),
  (0b0001_0000_0010_0000_0000_1111_0000_0101, .settype 15 5),
  (0b0001_0000_0011_0000_0000_0001_0000_0010, .setkeymap 1 [0, 0]),
  (0b0001_0000_0100_0000_1000_0000_0000_0001, .keydown 0x8001#16),
  (0b0001_0000_0101_0000_0000_0000_0101_1000, .keyup 0x58#16),
  (0b0001_0000_0110_0000_0000_0001_0000_0000, .mousemove 1 0 0),
  (0b0001_0000_0111_0000_0000_0000_0000_0000, .getstate),
  (0b0001_0000_1000_0000_0000_0000_0000_0000, .setstate Saved.default)]

theorem test_decode_windows : ∀ p ∈ wordsWindows, decodeTableWord 32 p.1 = some p.2 := by decide
theorem test_decode_ports : ∀ p ∈ wordsPorts, decodeTableWord 32 p.1 = some p.2 := by decide
theorem test_decode_serial : ∀ p ∈ wordsSerial, decodeTableWord 32 p.1 = some p.2 := by decide
theorem test_decode_banks : ∀ p ∈ wordsBanks, decodeTableWord 32 p.1 = some p.2 := by decide
theorem test_decode_calls : ∀ p ∈ wordsCalls, decodeTableWord 32 p.1 = some p.2 := by decide

/-- Under a mapper that is not BANKED the selector's word is the row below it (R104, R106). -/
theorem test_decode_psel_needs_banked :
    decode BusMap.default .flat (requestOfWord 32 0x02A130F3) = .ok (.auxWr .byte 0xA130F3#24 0) := by decide

/-- A bank tagged ROM region 4 (R16): cartridge addresses above 0x7FFFFF. -/
theorem test_decode_region4 :
    decode { BusMap.default with bankTag := #v[.rom 0, .rom 1, .rom 2, .rom 3, .rom 4, .io, .video, .ram] } .flat
      (requestOfWord 32 0x00800001) = .ok (.romRd .byte 4 0x800001#24) := by decide

/-! ## The address decode at its borders -/

/-- R81, R82: where the windows of the I/O bank begin and end (V6.8, V1.5, V1.6, V1.7). -/
theorem test_select_borders :
    BusMap.default.select .banked false .byte 0xA0FFFF#24 = .sec ∧
    BusMap.default.select .banked false .byte 0xA10000#24 = .ioreg .version ∧
    BusMap.default.select .banked false .byte 0xA1001F#24 = .ioreg .sctrl3 ∧
    BusMap.default.select .banked false .byte 0xA10020#24 = .ioinv ∧
    BusMap.default.select .banked false .byte 0xA11101#24 = .busreq ∧
    BusMap.default.select .banked false .byte 0xA11102#24 = .ioinv ∧
    BusMap.default.select .banked true .byte 0xA130EF#24 = .aux ∧
    BusMap.default.select .banked true .byte 0xA130F0#24 = .psel ∧
    BusMap.default.select .banked true .byte 0xA13100#24 = .ioinv ∧
    BusMap.default.select .banked false .byte 0xC00020#24 = .vidinv := by decide

/-! ## Unused banks, RAM, video -/

/-- V1.1, V1.3. -/
theorem test_unused_rd : returned (exec (.unusedRd .byte 0x800000#24) .reset) = some (.byte 0xFF#8) ∧
    returned (exec (.unusedRd .word 0x9FFFFF#24) .reset) = some (.word 0xFFFF#16) := by decide

/-- V1.4. -/
theorem test_unused_wr : exec (.unusedWr .word 0x800000#24 0x1234#16) .reset = .next .reset := rfl

/-- V1.5, V1.6. -/
theorem test_ioinv_rd : returned (exec (.ioinvRd .word 0xA10020#24) .reset) = some (.word 0xFFFF#16) ∧
    returned (exec (.ioinvRd .byte 0xA11102#24) .reset) = some (.byte 0xFF#8) := by decide

/-- R145. -/
theorem test_ioinv_wr : exec (.ioinvWr .word 0xA14000#24 0x1234#16) .reset = .next .reset := rfl

/-- V1.9, V1.10. -/
theorem test_vidinv_rd : returned (exec (.vidinvRd .word 0xC10000#24) .reset) = some (.word 0xFFFF#16) ∧
    returned (exec (.vidinvRd .byte 0xC00020#24) .reset) = some (.byte 0xFF#8) := by decide

/-- V1.15. -/
theorem test_vidinv_wr : exec (.vidinvWr .word 0xC00020#24 0#16) .reset = .next .reset := rfl

/-- V1.12: a free value, asked for at the even address. -/
theorem test_vid_rd : returned (exec (.vidRd .word 0xC8FF1F#24) .reset) =
    some (.word (Config.vidReadWord 1 0xC8FF1E#24)) := rfl

/-- V1.13. -/
theorem test_vid_wr_word : after State.events (exec (.vidWr .word 0xC00004#24 0x8F02#16) .reset) =
    some [.vidWriteWord 0xC00004#24 0x8F02#16] := by decide

/-- V1.14. -/
theorem test_vid_wr_byte : after State.events (exec (.vidWr .byte 0xC00011#24 0x9F#16) .reset) =
    some [.vidWriteByte 0xC00011#24 0x9F#8] := by decide

/-- V2.1. -/
theorem test_ram_wr_word : after State.ram (exec (.ramWr .word 0xFF0100#24 0x1234#16) .reset) =
    some [(0x100, 0x12#8), (0x101, 0x34#8)] := by decide

/-- V2.4: an odd word address. -/
theorem test_ram_wr_odd : after State.ram (exec (.ramWr .word 0xE20103#24 0xBEEF#16) .reset) =
    some [(0x102, 0xBE#8), (0x103, 0xEF#8)] := by decide

/-- V2.3, V2.2: one lane changed, read through a mirror. -/
theorem test_ram_rd : returned (exec (.ramRd .word 0xFF0100#24)
      { State.reset with ram := [(0x100, 0x12#8), (0x101, 0xAB#8)] }) = some (.word 0x12AB#16) ∧
    returned (exec (.ramRd .byte 0xE10101#24)
      { State.reset with ram := [(0x100, 0x12#8), (0x101, 0xAB#8)] }) = some (.byte 0xAB#8) := by decide

/-- V2.7: a byte never written is a free value of this power-on. -/
theorem test_ram_rd_unwritten :
    returned (exec (.ramRd .byte 0xFF0200#24) .reset) = some (.byte (Config.ramPowerOn 0 0x200)) := rfl

/-! ## The cartridge -/

/-- V3.1, V3.3. -/
theorem test_rom_rd_flat : returned (exec (.romRd .word 0 0x000000#24) (cart .flat rom16)) = some (.word 0x00FF#16) ∧
    returned (exec (.romRd .byte 0 0x000013#24) (cart .flat rom16)) = some (.byte 0x34#8) := by decide

/-- V4.8: window 5's selector beyond the image; V4.2: window 1 remapped to page 3. -/
theorem test_rom_rd_banked :
    returned (exec (.romRd .word 1 0x280000#24) (cart .banked romPages)) = some (.word 0xA151#16) ∧
    returned (exec (.romRd .word 0 0x080000#24) (paged 1 3#6)) = some (.word 0xA353#16) := by decide

/-- V3.9 to V3.12, by one byte each; V3.7. -/
theorem test_resolve_fixed_const :
    cmReadByte fixedConst 0x400000#24 = 0x11#8 ∧ cmReadByte fixedConst 0x400001#24 = 0x01#8 ∧
    cmReadByte fixedConst 0x400002#24 = 0x33#8 ∧ cmReadByte fixedConst 0x400004#24 = 0x04#8 ∧
    cmReadByte fixedConst 0x400009#24 = 0x09#8 ∧ cmReadByte (cart .flat ⟨0, []⟩) 0#24 = 0xFF#8 := by decide

/-- V3.13 to V3.16: the battery-RAM window and its borders. -/
theorem test_resolve_saves :
    cmReadByte saves 0x200000#24 = 0xFF#8 ∧ cmReadByte saves 0x200001#24 = 0x77#8 ∧
    cmReadByte saves 0x1FFFFE#24 = 0xFE#8 ∧ cmReadByte saves 0x210001#24 = 0x01#8 := by decide

/-- V3.14. -/
theorem test_rom_wr_save :
    after State.sram (exec (.romWr .byte 1 0x200001#24 0x55#16) saves) = some [(1, 0x55#8)] := by decide

/-- V3.4, V3.17: an image write and a write to a disabled window change nothing. -/
theorem test_rom_wr_discarded :
    exec (.romWr .word 0 0x000000#24 0xFFFF#16) (cart .flat rom16) = .next (cart .flat rom16) ∧
    exec (.romWr .byte 1 0x200001#24 0x77#16) (cart .flat rom64k) = .next (cart .flat rom64k) := ⟨rfl, rfl⟩

/-- V4.5: the LO lane of a word carries the selector. -/
theorem test_psel_wr_word : after State.pageMap (exec (.pselWr .word 0xA130F4#24 0x3F01#16) (cart .banked romPages)) =
    some #v[0, 1, 1, 3, 4, 5, 6, 7] := by decide

/-- V4.4, V4.7 and the last window: pinned, even, and 7. -/
theorem test_psel_wr_byte :
    after State.pageMap (exec (.pselWr .byte 0xA130F1#24 2#16) .reset) = some #v[0, 1, 2, 3, 4, 5, 6, 7] ∧
    after State.pageMap (exec (.pselWr .byte 0xA130F4#24 2#16) .reset) = some #v[0, 1, 2, 3, 4, 5, 6, 7] ∧
    after State.pageMap (exec (.pselWr .byte 0xA130FF#24 0xC9#16) .reset) = some #v[0, 1, 2, 3, 4, 5, 6, 9] := by decide

/-- V4.3, V4.11. -/
theorem test_aux_rd : returned (exec (.auxRd .byte 0xA130F3#24) .reset) = some (.byte 0xFF#8) ∧
    returned (exec (.auxRd .word 0xA130F1#24) (cart .flat rom16)) = some (.word 0xFFFF#16) := by decide

/-- V4.12, V4.11. -/
theorem test_aux_wr : after State.pageMap (exec (.auxWr .byte 0xA13001#24 1#16) .reset) = some pageMapPowerOn ∧
    after State.pageMap (exec (.auxWr .byte 0xA130F3#24 5#16) (cart .flat rom16)) = some pageMapPowerOn := by decide

/-! ## The secondary CPU's window and the arbiter -/

/-- V6.1. -/
theorem test_sec_rdb_closed : returned (exec (.secRdb 0xA00000#24) .reset) = some (.byte 0#8) := by decide

/-- V6.7, V5.12: open, and closed while reset is held. -/
theorem test_sec_rdb_open :
    returned (exec (.secRdb 0xA0FFFF#24) (lines true false)) = some (.byte (Config.secRead 1 0xFFFF#16)) ∧
    returned (exec (.secRdb 0xA00000#24) (lines true true)) = some (.byte 0#8) := ⟨rfl, rfl⟩

/-- V6.6: one byte on both lanes; V6.2. -/
theorem test_sec_rdw : returned (exec (.secRdw 0xA01FFD#24) (lines true false)) =
      some (.word (Config.secRead 1 0x1FFC#16 ++ Config.secRead 1 0x1FFC#16)) ∧
    returned (exec (.secRdw 0xA0FFFE#24) .reset) = some (.word 0#16) := ⟨rfl, rfl⟩

/-- V6.4, V6.3. -/
theorem test_sec_wrb :
    after State.events (exec (.secWrb 0xA00000#24 0xF3#16) (lines true false)) = some [.secWrite 0#16 0xF3#8] ∧
    after State.events (exec (.secWrb 0xA00000#24 0x55#16) .reset) = some [] := by decide

/-- V6.5. -/
theorem test_sec_wrw : after State.events (exec (.secWrw 0xA00010#24 0x12AB#16) (lines true false)) =
    some [.secWrite 0x10#16 0x12#8] := by decide

/-- V5.4: the grace window includes cycle 1016; V5.5: the odd lane. -/
theorem test_busreq_rd :
    returned (exec (.busreqRd .byte 0xA11100#24 (at' 1016 467)) (lines true false)) = some (.byte 0x81#8) ∧
    returned (exec (.busreqRd .byte 0xA11100#24 (at' 1017 467)) (lines true false)) = some (.byte 0x80#8) ∧
    returned (exec (.busreqRd .word 0xA11100#24 (at' 1018 467)) (lines true false)) = some (.word 0x80FF#16) := by decide

/-- V5.1. -/
theorem test_busreq_rd_running :
    returned (exec (.busreqRd .byte 0xA11100#24 (at' 990 400)) .reset) = some (.byte 0x81#8) := by decide

/-- V5.2, V5.7, V5.8: the stop edge, its advance truncated where the secondary is past it or the frame is over. -/
theorem test_busreq_wr_stop :
    after State.events (exec (.busreqWr .word 0xA11100#24 0x0100#16 (at' 1000 400)) .reset) = some [.secAdvance 67] ∧
    after State.arb (exec (.busreqWr .word 0xA11100#24 0x0100#16 (at' 1000 400)) .reset) =
      some ⟨true, false, 1000, true⟩ ∧
    after State.events (exec (.busreqWr .word 0xA11100#24 0x0100#16 (at' 1000 500)) .reset) = some [.secAdvance 0] ∧
    after State.events (exec (.busreqWr .word 0xA11100#24 0x0100#16 (at' 3500 1400)) .reset) = some [.secAdvance 0] := by
  decide

/-- R192, R360: a session with `CONV_DEN = 0` starts, and its stop edge advances by a free value (log entry 23). -/
theorem test_conv_by_zero :
    after (fun t => t.session.convDen) (step { State.reset with pending := [⟨0x10000000#32, { Operands.zero with
      power := { PowerConfig.default with session := { Session.default with convDen := 0 } } }⟩] }) = some 0 ∧
    after State.events (exec (.busreqWr .word 0xA11100#24 0x0100#16 ⟨10, 11, 1400, 0⟩)
      { State.reset with session := { Session.default with convDen := 0 } }) =
      some [.secAdvance (truncSub (truncSub 1400 (0 + Config.convStep 7 0)) 0)] := ⟨rfl, rfl⟩

/-- V5.3: the resume edge; V5.6, V5.17: non-edges. -/
theorem test_busreq_wr_resume :
    after State.events (exec (.busreqWr .word 0xA11100#24 0x0000#16 (at' 2500 467)) (lines true false)) =
      some [.secSetOdo 1167] ∧
    after State.arb (exec (.busreqWr .word 0xA11100#24 0x0100#16 (at' 1030 467)) (lines true false)) =
      some ⟨true, false, 1000, true⟩ ∧
    after State.events (exec (.busreqWr .byte 0xA11100#24 0#16 (at' 1 1)) .reset) = some [] := by decide

/-- V5.16. -/
theorem test_sreset_rd : returned (exec (.sresetRd .word 0xA11200#24) .reset) = some (.word 0xFFFF#16) := by decide

/-- V5.10: the edge, and the second assertion. -/
theorem test_sreset_wr_on :
    after State.events (exec (.sresetWr .word 0xA11200#24 0#16) .reset) = some [.secHalt, .soundReset] ∧
    after State.events (exec (.sresetWr .word 0xA11200#24 0#16) (lines false true)) = some [] := by decide

/-- V5.13. -/
theorem test_sreset_wr_off : after State.arb (exec (.sresetWr .word 0xA11200#24 0x0100#16) (lines true true)) =
    some ⟨true, false, 1000, true⟩ := by decide

/-! ## The I/O registers -/

/-- V7.1. -/
theorem test_version_rd : returned (exec (.versionRd .word 0xA10000#24) .reset) = some (.word 0xFFA0#16) := by decide

/-- R232. -/
theorem test_version_wr : exec (.versionWr .byte 0xA10001#24 0x55#16) .reset = .next .reset := rfl

/-- V7.2; V7.8: a mixed direction. -/
theorem test_data1_rd : returned (exec (.data1Rd .word 0xA10002#24) .reset) = some (.word 0xFFFF#16) ∧
    returned (exec (.data1Rd .byte 0xA10003#24) (plugged 0 0x0F#8 0xA5#8 (dev .pad3 0xFFF#12 0 0xF5#8))) =
      some (.byte 0xF5#8) := by decide

/-- P6, row 5: an idle mouse on port 2. -/
theorem test_data2_rd : returned (exec (.data2Rd .byte 0xA10005#24) (plugged 1 0x40#8 0xFF#8 (moved 5 (-3)))) =
    some (.byte 0xF0#8) := by decide

/-- R276: nothing on port 3; an output bit shows `DOUT` (R216). -/
theorem test_data3_rd :
    returned (exec (.data3Rd .byte 0xA10007#24) (plugged 2 0x02#8 0xFD#8 (Device.powerOn .none))) =
      some (.byte 0xFD#8) := by decide

/-- V7.10: a word write applies the LO byte. -/
theorem test_data1_wr_word :
    after State.ports (exec (.data1Wr .word 0xA10002#24 0x12C3#16) (plugged 0 0x0F#8 0xA5#8 (dev .pad3 0xFFF#12 0 0xF5#8))) =
      some #v[⟨0x0F#8, 0xC3#8⟩, ⟨0#8, 0xFF#8⟩, ⟨0#8, 0xFF#8⟩] ∧
    after (fun t => (t.dev 0).lastLines)
      (exec (.data1Wr .word 0xA10002#24 0x12C3#16) (plugged 0 0x0F#8 0xA5#8 (dev .pad3 0xFFF#12 0 0xF5#8))) =
      some 0xF3#8 := by decide

/-- V7.9: an even byte is discarded. -/
theorem test_data1_wr_even : after State.ports (exec (.data1Wr .byte 0xA10002#24 0x12#16) .reset) =
    some (Vector.replicate 3 Port.powerOn) := by decide

/-- P6, row 6. -/
theorem test_data2_wr : after (fun t => t.dev 1) (exec (.data2Wr .byte 0xA10005#24 0xBF#16)
      (plugged 1 0x40#8 0xFF#8 (moved 5 (-3)))) =
    some { Device.powerOn .mouse with
      counter := 1, lastLines := 0xBF#8, latX := 0x05#8, latY := 0xFD#8, latFlags := 0b0010#4 } := by decide

/-- R217, R220 on port 3, with no output: the value is kept, no line moves. -/
theorem test_data3_wr : after (fun t => (t.port 2, t.dev 2)) (exec (.data3Wr .byte 0xA10007#24 0x12#16) .reset) =
    some (⟨0#8, 0x12#8⟩, Device.powerOn .none) := by decide

/-- V7.3. -/
theorem test_ctrl1_rd : returned (exec (.ctrl1Rd .word 0xA10008#24) .reset) = some (.word 0xFF00#16) := by decide

/-- V7.5: a direction change makes TH fall. -/
theorem test_ctrl1_wr : after (fun t => (t.port 0, (t.dev 0).lastLines))
      (exec (.ctrl1Wr .byte 0xA10009#24 0x40#16) (plugged 0 0#8 0#8 (Device.powerOn .pad3))) =
    some (⟨0x40#8, 0#8⟩, 0xBF#8) := by decide

/-- P6, row 4, read back. -/
theorem test_ctrl2_rd : returned (exec (.ctrl2Rd .byte 0xA1000B#24) (plugged 1 0x40#8 0xFF#8 (moved 0 0))) =
    some (.byte 0x40#8) := by decide

/-- P6, row 4: no edge. -/
theorem test_ctrl2_wr : after (fun t => (t.port 1, t.dev 1))
      (exec (.ctrl2Wr .byte 0xA1000B#24 0x40#16) (plugged 1 0#8 0xFF#8 (moved 5 (-3)))) =
    some (⟨0x40#8, 0xFF#8⟩, moved 5 (-3)) := by decide

/-- R218 at port 3. -/
theorem test_ctrl3_rd : returned (exec (.ctrl3Rd .byte 0xA1000D#24) (plugged 2 0x81#8 0#8 (Device.powerOn .none))) =
    some (.byte 0x81#8) := by decide

/-- R219 at port 3: all eight bits are stored. -/
theorem test_ctrl3_wr : after (fun t => t.port 2) (exec (.ctrl3Wr .byte 0xA1000D#24 0xFF#16) .reset) =
    some ⟨0xFF#8, 0xFF#8⟩ := by decide

/-- V7.11 at each port: the transmit register. -/
theorem test_txdata_wr :
    after (fun t => (t.dev 0).serLastTx) (exec (.txdata1Wr .byte 0xA1000F#24 0x55#16) .reset) = some 0x55#8 ∧
    after (fun t => (t.dev 1).serLastTx) (exec (.txdata2Wr .byte 0xA10015#24 0x56#16) .reset) = some 0x56#8 ∧
    after (fun t => (t.dev 2).serLastTx) (exec (.txdata3Wr .byte 0xA1001B#24 0x57#16) .reset) = some 0x57#8 := by decide

/-- V7.11, read back. -/
theorem test_txdata_rd :
    returned (exec (.txdata1Rd .byte 0xA1000F#24)
      (plugged 0 0 0 { Device.powerOn .pad3 with serLastTx := 0x55#8 })) = some (.byte 0x55#8) ∧
    returned (exec (.txdata2Rd .byte 0xA10015#24)
      (plugged 1 0 0 { Device.powerOn .pad3 with serLastTx := 0x56#8 })) = some (.byte 0x56#8) ∧
    returned (exec (.txdata3Rd .byte 0xA1001B#24)
      (plugged 2 0 0 { Device.powerOn .none with serLastTx := 0x57#8 })) = some (.byte 0x57#8) := by decide

/-- V7.11: the receive register. -/
theorem test_rxdata_rd : returned (exec (.rxdata1Rd .byte 0xA10011#24) .reset) = some (.byte 0xFF#8) ∧
    returned (exec (.rxdata2Rd .byte 0xA10017#24) .reset) = some (.byte 0xFF#8) ∧
    returned (exec (.rxdata3Rd .byte 0xA1001D#24) .reset) = some (.byte 0xFF#8) := by decide

/-- R248, R254, R260. -/
theorem test_rxdata_wr : exec (.rxdata1Wr .byte 0xA10011#24 0#16) .reset = .next .reset ∧
    exec (.rxdata2Wr .byte 0xA10017#24 0#16) .reset = .next .reset ∧
    exec (.rxdata3Wr .byte 0xA1001D#24 0#16) .reset = .next .reset := ⟨rfl, rfl, rfl⟩

/-- V7.11: the serial control register keeps its upper five bits. -/
theorem test_sctrl_wr :
    after (fun t => (t.dev 0).serCtrl) (exec (.sctrl1Wr .byte 0xA10013#24 0xFF#16) .reset) = some 0xF8#8 ∧
    after (fun t => (t.dev 1).serCtrl) (exec (.sctrl2Wr .byte 0xA10019#24 0x0F#16) .reset) = some 0x08#8 ∧
    after (fun t => (t.dev 2).serCtrl) (exec (.sctrl3Wr .word 0xA1001E#24 0xFF10#16) .reset) = some 0x10#8 := by decide

/-- V7.11: `RD.W $A10012`. -/
theorem test_sctrl_rd :
    returned (exec (.sctrl1Rd .word 0xA10012#24)
      (plugged 0 0 0 { Device.powerOn .pad3 with serCtrl := 0xF8#8 })) = some (.word 0xFFF8#16) ∧
    returned (exec (.sctrl2Rd .byte 0xA10019#24)
      (plugged 1 0 0 { Device.powerOn .pad3 with serCtrl := 0x08#8 })) = some (.byte 0x08#8) ∧
    returned (exec (.sctrl3Rd .byte 0xA1001F#24)
      (plugged 2 0 0 { Device.powerOn .none with serCtrl := 0x10#8 })) = some (.byte 0x10#8) := by decide

/-! ## The devices -/

/-- V7.12 to V7.17: a row by TH high and one by TH low. -/
theorem test_pad_rows :
    plainData (dev .none 0xFFF#12 0 0xBF#8) = 0xFF#8 ∧
    plainData (dev .pad2 0xFEE#12 0 0xFF#8) = 0xEE#8 ∧ plainData (dev .pad2 0xFEE#12 0 0xBF#8) = 0xAE#8 ∧
    plainData (dev .pad3 0xF7F#12 0 0xFF#8) = 0xFF#8 ∧ plainData (dev .pad3 0xF7F#12 0 0xBF#8) = 0x93#8 ∧
    plainData (dev .pad3 0xFBB#12 0 0xFF#8) = 0xFB#8 ∧ plainData (dev .pad3 0xFBB#12 0 0xBF#8) = 0xA3#8 ∧
    plainData (dev .pad3 0xFFC#12 0 0xFF#8) = 0xFC#8 ∧ plainData (dev .pad3 0xFFC#12 0 0xBF#8) = 0xB0#8 := by decide

/-- V7.18, V7.19. -/
theorem test_pad6_rows :
    plainData (dev .pad6 0xBBF#12 2 0xFF#8) = 0xFF#8 ∧ plainData (dev .pad6 0xBBF#12 3 0xFF#8) = 0xFB#8 ∧
    plainData (dev .pad6 0xBBF#12 1 0xBF#8) = 0xA3#8 ∧ plainData (dev .pad6 0xBBF#12 2 0xBF#8) = 0xA0#8 ∧
    plainData (dev .pad6 0xBBF#12 3 0xBF#8) = 0xAF#8 := by decide

/-- V7.20, and the phases of P6, rows 8, 11, 12 and 15. -/
theorem test_mouse_rows :
    plainData (dev .mouse 0#12 0 0xFF#8) = 0xF0#8 ∧ plainData (dev .mouse 0#12 0 0xBF#8) = 0xB0#8 ∧
    plainData (dev .mouse 0#12 2 0xFF#8) = 0xEF#8 ∧ plainData (dev .mouse 2#12 5 0xBF#8) = 0xA2#8 ∧
    plainData { dev .mouse 0#12 4 0xFF#8 with latFlags := 2#4 } = 0xE2#8 ∧
    plainData { dev .mouse 0#12 8 0xFF#8 with latY := 0xFD#8 } = 0xEF#8 := by decide

/-- V7.21 to V7.25. -/
theorem test_mouse_sample :
    mouseSample (moved 300 (-300)) =
      { Device.powerOn .mouse with latX := 0xFF#8, latY := 0x01#8, latFlags := 0b1110#4 } ∧
    mouseSample (moved (-255) (-1)) =
      { Device.powerOn .mouse with latX := 0x01#8, latY := 0xFF#8, latFlags := 0b0011#4 } ∧
    mouseSample (moved 255 0) = { Device.powerOn .mouse with latX := 0xFF#8 } ∧
    mouseSample (moved (-256) 256) =
      { Device.powerOn .mouse with latX := 0x01#8, latY := 0xFF#8, latFlags := 0b1101#4 } := by decide

/-- V7.26 to V7.31, as a data or control write each: the member selected. -/
theorem test_tap_select :
    after (fun t => (t.dev 0).counter) (exec (.data1Wr .byte 0xA10003#24 0x5F#16) (tapped 3 0xFF#8 0xFFF#12)) = some 0#4 ∧
    after (fun t => (t.dev 0).counter) (exec (.data1Wr .byte 0xA10003#24 0x6F#16) (tapped 2 0xFF#8 0xFFF#12)) = some 0#4 ∧
    after (fun t => (t.dev 0).counter) (exec (.data1Wr .byte 0xA10003#24 0x4F#16) (tapped 2 0xEF#8 0xFFF#12)) = some 3#4 ∧
    after (fun t => (t.dev 0).counter) (exec (.data1Wr .byte 0xA10003#24 0x4F#16) (tapped 2 0xFF#8 0xFFF#12)) = some 0#4 ∧
    after (fun t => (t.dev 0).counter) (exec (.ctrl1Wr .byte 0xA10009#24 0x40#16) (tapped 2 0xDF#8 0xFFF#12)) = some 2#4 := by
  decide

/-- P5, rows 7 and 10: the lines reach the selected member, whose byte the port shows. -/
theorem test_tap_member :
    after (fun t => (t.dev 3).lastLines)
      (exec (.data1Wr .byte 0xA10003#24 0x6F#16) (tapped 2 0xFF#8 0xFFE#12)) = some 0xEF#8 ∧
    returned (exec (.data1Rd .byte 0xA10003#24) ((tapped 0 0xFF#8 0xFFE#12).setPort 0 ⟨0x40#8, 0x7F#8⟩)) =
      some (.byte 0xFE#8) := by decide

/-- V7.35, V7.36: a falling edge restarts the count, the same level does not. -/
theorem test_pad6_edge :
    plainLines 0xBF#8 { dev .pad6 0xFFF#12 2 0xFF#8 with scanlines := 24 } = dev .pad6 0xFFF#12 2 0xBF#8 ∧
    plainLines 0xBF#8 { dev .pad6 0xFFF#12 2 0xBF#8 with scanlines := 24 } =
      { dev .pad6 0xFFF#12 2 0xBF#8 with scanlines := 24 } ∧
    plainLines 0xFF#8 (dev .pad6 0xFFF#12 3 0xBF#8) = dev .pad6 0xFFF#12 0 0xFF#8 := by decide

/-- V7.33, V7.34, V7.38 and V7.39: the 24th and the 25th tick, another type, an unselected member. -/
theorem test_scanline :
    after (fun t => t.dev 0) (exec .scanline (plugged 0 0 0 { dev .pad6 0xFFF#12 2 0xFF#8 with scanlines := 23 })) =
      some { dev .pad6 0xFFF#12 2 0xFF#8 with scanlines := 24 } ∧
    after (fun t => t.dev 0) (exec .scanline (plugged 0 0 0 { dev .pad6 0xFFF#12 2 0xFF#8 with scanlines := 24 })) =
      some (dev .pad6 0xFFF#12 0 0xFF#8) ∧
    after (fun t => (t.dev 0, t.result.status)) (exec .scanline .reset) = some (Device.powerOn .pad3, some 0) ∧
    after (fun t => (t.dev 5).scanlines) (exec .scanline ((tapped 0 0xFF#8 0xFFF#12).setDev 5 (Device.powerOn .pad6))) =
      some 1#5 := by decide

/-! ## The environment calls -/

/-- V8.1. -/
theorem test_settype_ok : returned (exec (.settype 0 2) .reset) = some .ok ∧
    after (fun t => t.dev 0) (exec (.settype 0 2) .reset) = some (Device.powerOn .pad6) := by decide

/-- V8.2, V8.3, V8.4. -/
theorem test_settype_reject : returned (exec (.settype 3 5) .reset) = some .reject ∧
    returned (exec (.settype 0 6) .reset) = some .reject ∧ returned (exec (.settype 15 1) .reset) = some .reject := by
  decide

/-- V8.7: a PAD3 drops the ninth and tenth keys. -/
theorem test_setkeymap : after (fun t => t.keys 0) (exec (.setkeymap 0 [0x26, 0x28, 0x25, 0x27, 0x53, 0x44, 0x41, 0x0D,
      0x51, 0x57]) .reset) = some #v[0x26, 0x28, 0x25, 0x27, 0x53, 0x44, 0x41, 0x0D, 0, 0, 0, 0] := by decide

/-- V8.14, V8.13. -/
theorem test_setkeymap_release : returned (exec (.setkeymap 15 [1]) .reset) = some .reject ∧
    after (fun t => (t.dev 0).buttons)
      (exec (.setkeymap 0 [7, 7]) (plugged 0 0 0 (dev .pad3 0xFFC#12 0 0xFF#8))) = some 0xFFF#12 := by decide

/-- V8.11: one key, two buttons; V8.15: a mouse's buttons are active high. -/
theorem test_keydown :
    after (fun t => (t.dev 0).buttons) (exec (.keydown 7) (State.reset.setKeys 0 #v[7, 7, 0, 0, 0, 0, 0, 0, 0, 0, 0, 0])) =
      some 0xFFC#12 ∧
    after (fun t => (t.dev 1).buttons) (exec (.keydown 0x102)
      ((plugged 1 0 0 (moved 0 0)).setKeys 1 #v[0x101, 0x102, 0x103, 0x104, 0, 0, 0, 0, 0, 0, 0, 0])) = some 2#12 := by decide

/-- V8.19. -/
theorem test_keydown_zero : after State.devices (exec (.keydown 0) .reset) = some State.reset.devices := by decide

/-- V8.10. -/
theorem test_keyup : after (fun t => (t.dev 0).buttons) (exec (.keyup 0x0D) ((plugged 0 0 0 (dev .pad3 0xF7F#12 0 0xFF#8)).setKeys
      0 #v[0x26, 0x28, 0x25, 0x27, 0x53, 0x44, 0x41, 0x0D, 0, 0, 0, 0])) = some 0xFFF#12 := by decide

/-- V8.16, V8.18. -/
theorem test_mousemove :
    after (fun t => t.dev 1) (exec (.mousemove 1 5 0xFFFD#16) (plugged 1 0 0 (moved 0 0))) = some (moved 5 (-3)) ∧
    after (fun t => (t.dev 1).relX) (exec (.mousemove 1 32767 0) (plugged 1 0 0 (moved 32767 0))) =
      some 32767#16 := by decide

/-- V8.17. -/
theorem test_mousemove_reject : returned (exec (.mousemove 0 1 1) .reset) = some .reject := by decide

/-- R320. -/
theorem test_getstate : returned (exec .getstate .reset) = some (.saved Saved.default) := by decide

/-- V8.22: no event. -/
theorem test_setstate : after (fun t => (t.result, t.arb.req, t.events))
      (exec (.setstate { Saved.default with arb := ⟨true, false, 0, false⟩ }) .reset) = some (.ok, true, []) := by decide

/-- A value of another session: `SRAM` past this session's window has no place, and `EEP` byte 0 it does not have. -/
def savedElsewhere : Saved :=
  { Saved.default with sramLen := 0x20000, sram := [(0xFFFF, 1#8), (0x10000, 2#8)], eepLen := 0 }

/-- R27, R321: the bytes inside the window are restored. -/
theorem test_setstate_longer_store : after (fun t => (t.result, t.sram, t.draws)) (exec (.setstate savedElsewhere) .reset) =
    some (.ok, [(0xFFFF, 1#8)], 2) := by decide

/-- The byte the value does not have is a free value. -/
theorem test_setstate_shorter_store : (State.reset.load savedElsewhere).storeByte .eep 0 = Config.restoredEep 1 0 :=
  Memory.read_fit _ _ _ (by decide)

/-- V8.21. -/
theorem test_setstate_reject : exec (.setstate { Saved.default with pageMap := pageMapPowerOn.set 0 1 }) .reset =
    .next (State.reset.withResult .reject) := rfl

/-- R360, R51: the stores, the draw and the types of a new session. -/
theorem test_poweron : after (fun t => (t.mapper, t.ram, t.ramDraw, t.draws, (t.dev 14).type))
      (exec (.poweron { PowerConfig.default with kind := .flat, types := defaultTypes.set 14 .mouse }) (lines true false)) =
    some (.flat, [], 1, 2, .mouse) := by decide

/-- R360, U3, U12: what is refused. -/
theorem test_poweron_refused :
    refusal (exec (.poweron { PowerConfig.default with kind := .quirk }) .reset) = some .quirkNotSupplied ∧
    refusal (exec (.poweron { PowerConfig.default with types := defaultTypes.set 3 .tap }) .reset) =
      some .illegalSession := by decide

/-! ## A step -/

/-- P1, row 1, as a step: the oldest operation is decoded and performed, and leaves the queue. -/
theorem test_step : after (fun t => (t.ram, t.pending))
      (step { State.reset with pending := [⟨0x03FF0100#32, { Operands.zero with data := 0x1234#16 }⟩] }) =
    some ([(0x100, 0x12#8), (0x101, 0x34#8)], []) := by decide

/-- R108, U4: a word that spells no operation. -/
theorem test_step_refused : refusal (step (State.reset.withFetchWord 32 0x04000000)) =
    some (.invalidOperation .zeroBits) := by decide

/-! ## Witnesses: the hypotheses of the statements can be met -/

/-- Well-formed operations at addresses that select their own targets, one for each constructor, and at both ends of
what their operands may be. -/
theorem test_meets_DecodeOfEncodeIsTheInstruction :
    ∀ p ∈ wordsWindows ++ wordsPorts ++ wordsSerial ++ wordsBanks ++ wordsCalls,
      p.2.wf = true ∧ p.2.placed BusMap.default .banked = true := by decide

theorem test_meets_EncodeOfDecodeIsTheWord :
    decode BusMap.default .banked (requestOfWord 32 0x00E10101) = .ok (.ramRd .byte 0xE10101#24) := by decide

/-- R108: the first and the last word of each reserved range, and their neighbours. -/
theorem test_meets_DecodeRejectsExactlyTheReservedWords :
    decode BusMap.default .banked (requestOfWord 32 0x20000000) = .invalid .reservedClass ∧
    decode BusMap.default .banked (requestOfWord 32 0xFFFFFFFF) = .invalid .reservedClass ∧
    decode BusMap.default .banked (requestOfWord 32 0x03FFFFFF) = .ok (.ramWr .word 0xFFFFFF#24 0) ∧
    decode BusMap.default .banked (requestOfWord 32 0x04000000) = .invalid .zeroBits ∧
    decode BusMap.default .banked (requestOfWord 32 0x0FFFFFFF) = .invalid .zeroBits ∧
    decode BusMap.default .banked (requestOfWord 32 0x10900000) = .invalid .unknownCall ∧
    decode BusMap.default .banked (requestOfWord 32 0x1FFFFFFF) = .invalid .unknownCall ∧
    decode BusMap.default .banked (requestOfWord 32 0x10200FFF) = .ok (.settype 15 0xFF#8) ∧
    decode BusMap.default .banked (requestOfWord 32 0x10201000) = .invalid .strayArgument ∧
    decode BusMap.default .banked (requestOfWord 32 0x10410000) = .invalid .strayArgument ∧
    decode BusMap.default .banked (requestOfWord 32 0x10600001) = .invalid .strayArgument ∧
    decode BusMap.default .banked (requestOfWord 32 0x10800001) = .invalid .strayArgument := by decide

/-- A request of each kind: performed, no operation; and nothing waiting. -/
theorem test_meets_StepPerformsTheOldestWaitingOperation :
    State.reset.pending = [] ∧
    decode State.reset.session.map State.reset.mapper.kind (requestOfWord 32 0x10100000) = .ok .scanline ∧
    decode State.reset.session.map State.reset.mapper.kind (requestOfWord 32 0x20000000) =
      .invalid .reservedClass := by decide

/-- A legal state that is not the power-on state, and a step from it. -/
theorem test_meets_StepKeepsTheStateLegal :
    ((tapped 3 0xFF#8 0xFFE#12).withFetchWord 32 0x03FF0100).legal = true ∧
    after State.ram (step ((tapped 3 0xFF#8 0xFFE#12).withFetchWord 32 0x03FF0100)) =
      some [(0x100, 0#8), (0x101, 0#8)] := by decide

/-- I2 to I8 at the ends of their ranges. -/
theorem test_meets_LegalSavedStateMeansI2ToI8 :
    Saved.default.legal = true ∧
    Saved.legal { Saved.default with pageMap := pageMapPowerOn.set 0 1 } = false ∧
    (savedWith 2 (dev .tap 0xFFF#12 3 0xFF#8)).legal = true ∧
    (savedWith 3 (dev .tap 0xFFF#12 3 0xFF#8)).legal = false ∧
    (savedWith 0 (dev .pad6 0 4 0xFF#8)).legal = false ∧
    (savedWith 0 (dev .mouse 0 9 0xFF#8)).legal = true ∧
    (savedWith 0 (dev .mouse 0 10 0xFF#8)).legal = false ∧
    (savedWith 0 (dev .mouse 0x010#12 0 0xFF#8)).legal = false ∧
    (savedWith 0 (dev .pad3 0xEFF#12 0 0xFF#8)).legal = false ∧
    (savedWith 0 { Device.powerOn .pad6 with scanlines := 24 }).legal = true ∧
    (savedWith 0 { Device.powerOn .pad6 with scanlines := 25 }).legal = false ∧
    (savedWith 0 { Device.powerOn .pad3 with serCtrl := 4 }).legal = false ∧
    (savedWith 0 { Device.powerOn .pad3 with relX := 1 }).legal = false := by decide

/-- Sessions POWERON takes: a QUIRK one with its parameter and a tap on the last direct port. -/
theorem test_meets_EveryOperationCompletes :
    (Instr.ramRd .byte 0).isCall = false ∧ (Instr.ramRd .byte 0).isRead = true ∧ (Instr.ramWr .byte 0 0).isRead = false ∧
    Instr.scanline.isCall = true ∧
    (let c : PowerConfig := { PowerConfig.default with kind := .quirk, quirk := some ⟨1, []⟩, types := defaultTypes.set 2 .tap };
      (Instr.poweron c).isCall = true ∧ (c.kind = .quirk → c.quirk ≠ none) ∧
      ∀ v : Fin 15, c.types[v] = .tap → v.val ≤ 2) := by decide

/-- An address whose RAM byte is not listed. -/
theorem test_meets_RamReadReturnsTheIndexedBytes :
    State.reset.ram.find ((0xFFFFFF#24 : Addr).toNat % 0x10000) = none := by decide

theorem test_meets_WordWriteIsTwoByteWrites (clk : Clk) :
    (Instr.sresetWr ∈ laneWrites 4 clk) ∧ (fun sz a d => Instr.romWr sz 4 a d) ∈ laneWrites 4 clk := by
  simp [laneWrites]

theorem test_meets_WordReadIsTwoByteReads (clk : Clk) :
    (Instr.auxRd ∈ laneReads 4 clk) ∧ (fun sz a => Instr.busreqRd sz a clk) ∈ laneReads 4 clk := by
  simp [laneReads]

/-- A selector at the page count and one beyond it. -/
theorem test_meets_SelectorBeyondTheImageReadsIdentity :
    (paged 2 4#6).mapper = .banked ∧
    Session.saveSel (paged 2 4#6).session (BitVec.ofNat 24 (cartNat 0 0x100000#24)) = none ∧
    cartNat 0 0x100000#24 / 0x80000 = (2 : Fin 8).val ∧
    ((paged 2 4#6).session.rom.len + 0x7FFFF) / 0x80000 ≤ ((paged 2 4#6).page 2).toNat ∧
    ((paged 2 63#6).session.rom.len + 0x7FFFF) / 0x80000 ≤ ((paged 2 63#6).page 2).toNat := by decide

/-- The last window takes a write by its LO lane, window 0 does not. -/
theorem test_meets_SelectorWriteSetsOneUnpinnedWindow :
    (7 : Fin 8).val ≠ 0 ∧ (7 : Fin 8).val = (0xA130FF#24 : Addr).toNat / 2 % 8 ∧ reachesLo .byte 0xA130FF#24 = true ∧
    reachesLo .byte 0xA130FE#24 = false ∧ reachesLo .word 0xA130FE#24 = true := by decide

/-- Addresses at the two ends of a save window, and just outside it. -/
theorem test_meets_CartridgeWriteReachesOnlySaveMemory :
    Session.saveSel saves.session (BitVec.ofNat 24 (cartNat 1 0x200000#24)) = some (.sram, 0) ∧
    Session.saveSel saves.session (BitVec.ofNat 24 (cartNat 1 0x20FFFF#24)) = some (.sram, 0xFFFF) ∧
    Session.saveSel saves.session (BitVec.ofNat 24 (cartNat 0 0x1FFFFF#24)) = none ∧
    Session.saveSel saves.session (BitVec.ofNat 24 (cartNat 1 0x210000#24)) = none := by decide

/-- A mapper without hooks, one address below the selectors, and a QUIRK cartridge. -/
theorem test_meets_AuxiliaryWindowBelongsToTheMapper :
    State.reset.mapper.kind ≠ .quirk ∧ State.reset.mapper.kind = .banked ∧
    (0xA130EF#24 : Addr).toNat / 16 % 16 ≠ 15 ∧ quirky.mapper = .quirk ⟨7, [1#8]⟩ := by decide

/-- The two edges, with and without reset held, by a word and by the even byte. -/
theorem test_meets_BusRequestEdgesKeepTheClocksInStep :
    reachesHi .word 0xA11101#24 = true ∧ reachesHi .byte 0xA11100#24 = true ∧
    (hiData .word 0x0100#16).getLsbD 0 = true ∧ (hiData .byte 0x00FF#16).getLsbD 0 = true ∧
    (hiData .word 0x0000#16).getLsbD 0 = false ∧ Session.default.convDen ≠ 0 ∧ 2999 ≤ 3000 ∧
    State.reset.arb.req = false ∧ (lines false true).arb.req = false ∧ (lines true true).arb.req = true := by decide

/-- An odd byte, and both levels written again. -/
theorem test_meets_RequestLineActsOnEdgesOnly :
    reachesHi .byte 0xA11101#24 = false ∧
    (hiData .word 0x0100#16).getLsbD 0 = (lines true false).arb.req ∧
    (hiData .word 0x00FF#16).getLsbD 0 = (lines false false).arb.req ∧
    (lines true false).arb.req = !false ∧ (lines false false).arb.req = !true := by decide

/-- Both edges of the reset line. -/
theorem test_meets_ResetLineActsOnEdgesOnly :
    (reachesHi .word 0xA11200#24 = true ∧ (hiData .word 0x00FF#16).getLsbD 0 = false ∧
      (lines true false).arb.rst = false) ∧
    (reachesHi .byte 0xA11200#24 = true ∧ (hiData .byte 0x0001#16).getLsbD 0 = true ∧
      (lines true true).arb.rst = true) := by decide

/-- The last cycle inside the window and the first outside it. -/
theorem test_meets_StatusByteShowsTheGraceWindow :
    (at' 1016 0).priNow ≤ (lines true false).arb.lastReqCycle + (lines true false).session.graceCycles ∧
    ¬ (at' 1017 0).priNow ≤ (lines true false).arb.lastReqCycle + (lines true false).session.graceCycles ∧
    (lines true false).arb.lastReqPrior = true := by decide

theorem test_meets_OnlyArbiterWritesMoveTheLines :
    exec (.pselWr .byte 0xA130F1#24 2#16) .reset = .next .reset ∧
    (∀ sz a d clk, (Instr.pselWr .byte 0xA130F1#24 2#16) ≠ .busreqWr sz a d clk) ∧
    (∀ sz a d, (Instr.pselWr .byte 0xA130F1#24 2#16) ≠ .sresetWr sz a d) :=
  ⟨rfl, by simp, by simp⟩

/-- A direct device that is no tap, a selected member, and a record that is neither. -/
theorem test_meets_LinesReachOnlyTheAddressedDevices :
    (State.reset.devices[(2 : Fin 15)]).type ≠ .tap ∧ (2 : Fin 15) = direct 2 ∧
    active (devLines 0 0xFF#8 (tapped 3 0xFF#8 0xFFF#12).devices) 0 = (6 : Fin 15) ∧
    (5 : Fin 15) ≠ direct 0 ∧ (5 : Fin 15) ≠ active (devLines 0 0xFF#8 (tapped 3 0xFF#8 0xFFF#12).devices) 0 := by decide

theorem test_meets_PlainPadsOnlyKeepTheLines :
    (Device.powerOn .none).type = .none ∧ (Device.powerOn .pad2).type = .pad2 ∧ (Device.powerOn .pad3).type = .pad3 := by
  decide

/-- Phase 3 with TH low, about to rise, and with no edge. -/
theorem test_meets_SixButtonPadStepsOnTheRisingEdge :
    (dev .pad6 0xFFF#12 3 0xBF#8).type = .pad6 ∧ (dev .pad6 0xFFF#12 3 0xBF#8).counter.toNat ≤ 3 ∧
    (dev .pad6 0xFFF#12 3 0xBF#8).lastLines.getLsbD 6 = false ∧ (0xFF#8).getLsbD 6 = true := by decide

/-- Phase 9, phase 1, and idle with TH low. -/
theorem test_meets_MouseStepsOnEveryEdge :
    (dev .mouse 0 9 0xBF#8).type = .mouse ∧ (dev .mouse 0 9 0xBF#8).counter.toNat ≤ 9 ∧
    (dev .mouse 0 9 0xBF#8).lastLines.getLsbD 6 = (0xBF#8).getLsbD 6 ∧
    (dev .mouse 0 9 0xBF#8).lastLines.getLsbD 6 ≠ (0xFF#8).getLsbD 6 ∧ (dev .mouse 0 9 0xBF#8).counter ≠ 0#4 ∧
    (dev .mouse 0 1 0xBF#8).counter ≠ 0#4 ∧
    (dev .mouse 0 0 0xBF#8).counter = 0#4 ∧ (dev .mouse 0 0 0xBF#8).lastLines.getLsbD 6 = false := by decide

/-- Motion at the clipping bounds, just beyond one of them. -/
theorem test_meets_MouseSamplesItsMotionAtTheStart :
    (moved 255 (-256)).type = .mouse ∧ (moved 255 (-256)).counter = 0#4 ∧
    (moved 255 (-256)).lastLines.getLsbD 6 = true ∧ (0xBF#8).getLsbD 6 = false ∧
    ¬ 255 < (moved 255 (-256)).relX.toInt ∧ (moved 255 (-256)).relY.toInt < -255 := by decide

/-- Each of the three choices: TL falls, TR falls from member 3, neither. -/
theorem test_meets_TapSelectsByTheTwoSpareLines :
    let ds := (tapped 3 0xFF#8 0xFFF#12).devices
    ds[direct 0].type = .tap ∧ ds[direct 0].counter.toNat ≤ 3 ∧
    (ds[direct 0].lastLines.getLsbD 4 = true ∧ (0xEF#8).getLsbD 4 = false) ∧
    (ds[direct 0].lastLines.getLsbD 5 = true ∧ (0xDF#8).getLsbD 5 = false ∧ (0xDF#8).getLsbD 4 = true) ∧
    ((0xBF#8).getLsbD 5 = true ∧ (0xBF#8).getLsbD 4 = true) := by decide

theorem test_meets_PadRowsShowTheButtons :
    (Device.powerOn .none).type = .none ∧ (Device.powerOn .pad2).type = .pad2 ∧ (Device.powerOn .pad3).type = .pad3 ∧
    (0 < 8 ∧ 7 < 8) := by decide

theorem test_meets_SixButtonRowsShowTheExtraNibbleInPhaseThree :
    7 < 8 ∧ (dev .pad6 0xBBF#12 3 0xFF#8).type = .pad6 ∧ (dev .pad6 0xBBF#12 3 0xFF#8).counter.toNat ≤ 3 := by decide

theorem test_meets_MouseShowsOneNibbleAPhase :
    (dev .mouse 0 9 0xBF#8).type = .mouse ∧ (dev .mouse 0 9 0xBF#8).counter.toNat ≤ 9 := by decide

/-- From a count of 0: 24 ticks, and the 25th. -/
theorem test_meets_SixButtonPadTimesOutOnThe25thTick :
    let s := plugged 0 0 0 (dev .pad6 0xFFF#12 2 0xFF#8)
    (s.dev 1).type ≠ .pad6 ∧ (s.dev 0).type = .pad6 ∧ (s.dev 0).scanlines.toNat + (23 + 1) < 25 ∧
    (s.dev 0).scanlines.toNat + (24 + 1) = 25 := by decide

/-- On the last port, at the first and a later read. -/
theorem test_meets_ThreeButtonHandshakeRecoversTheButtons :
    let s := plugged 2 0x40#8 0xFF#8 (dev .pad3 0xF7F#12 0 0xBF#8)
    (2 : Fin 15).val = (2 : Fin 3).val ∧ (s.dev 2).type = .pad3 ∧ (s.port 2).ctrl = 0x40#8 ∧ 1 ≤ 1 ∧ 1 ≤ 4 := by decide

/-- On the last port, at the first and the ninth read. -/
theorem test_meets_SixButtonHandshakeRecoversTheExtraButtons :
    let s := plugged 2 0x40#8 0xFF#8 (dev .pad6 0xBBF#12 0 0xFF#8)
    (2 : Fin 15).val = (2 : Fin 3).val ∧ (s.dev 2).type = .pad6 ∧ (s.dev 2).counter = 0#4 ∧
    (s.dev 2).lastLines.getLsbD 6 = true ∧ (s.port 2).ctrl = 0x40#8 ∧ 1 ≤ 1 ∧ 9 ≤ 9 := by decide

/-- The writes and reads of a handshake are those of P3, rows 5 to 8. -/
theorem test_handshake : handshake 0 2 = [.data1Wr .byte 0xA10003#24 0xFF#16, .data1Rd .byte 0xA10003#24,
    .data1Wr .byte 0xA10003#24 0xBF#16, .data1Rd .byte 0xA10003#24] ∧ dataAddr 2 = 0xA10007#24 := by decide

/-- A mouse on the last port, a tap on the last direct one. -/
theorem test_meets_SettypeMakesTheDeviceAnew :
    let codes : List (Nat × DevType) := [(0, DevType.none), (1, .pad3), (2, .pad6), (3, .pad2), (4, .mouse), (5, .tap)];
    (14#4).toNat = (14 : Fin 15).val ∧ ((4#8).toNat, DevType.mouse) ∈ codes ∧
    (DevType.mouse = .tap → (14 : Fin 15).val ≤ 2) ∧
    (2#4).toNat = (2 : Fin 15).val ∧ ((5#8).toNat, DevType.tap) ∈ codes ∧
    (DevType.tap = .tap → (2 : Fin 15).val ≤ 2) := by decide

/-- Each ground of rejection at its first value. -/
theorem test_meets_UnsupportedCallsAreRejected :
    5 < (6#8).toNat ∧ 14 < (15#4).toNat ∧ ((5#8 : Byte) = 5#8 ∧ 2 < (3#4).toNat) ∧
    (∃ w : Fin 15, w.val = (0#4).toNat ∧ (State.reset.dev w).type ≠ .mouse) ∧
    Saved.legal { Saved.default with pageMap := pageMapPowerOn.set 0 1 } = false := by decide

theorem test_meets_SetkeymapTruncatesAndReleases : (14#4).toNat = (14 : Fin 15).val := by decide

/-- A mapped key, and code 0. -/
theorem test_meets_KeyEventsDriveTheMappedButtons :
    let s := State.reset.setKeys 0 #v[7, 7, 0, 0, 0, 0, 0, 0, 0, 0, 0, 7]
    (7#16 : BitVec 16) ≠ 0#16 ∧ (1 : Fin 12).val < nbtn (s.dev 0).type ∧ (s.keys 0)[(1 : Fin 12)] = 7#16 ∧
    ¬ (11 : Fin 12).val < nbtn (s.dev 0).type := by decide

theorem test_meets_PressedButtonsAreTheKeysHeld :
    (0#4).toNat = (0 : Fin 15).val ∧
    ((2#8).toNat, DevType.pad6) ∈
      [(0, DevType.none), (1, .pad3), (2, .pad6), (3, .pad2), (4, .mouse), (5, .tap)] ∧
    (DevType.pad6 = .tap → (0 : Fin 15).val ≤ 2) ∧
    keysP3[11]? = some 0x4D#16 ∧ 11 < nbtn .pad6 ∧ (0x4D#16 : BitVec 16) ≠ 0#16 ∧ 0x4D#16 ∈ [0x4D#16, 0x58#16] := by decide

/-- Sums at and beyond both ends. -/
theorem test_meets_MousemoveAccumulatesSaturating :
    (1#4).toNat = (1 : Fin 15).val ∧ ((plugged 1 0 0 (moved 32767 (-32768))).dev 1).type = .mouse ∧
    after (fun t => (t.dev 1).relX.toInt) (exec (.mousemove 1 1 0xFFFF#16) (plugged 1 0 0 (moved 32767 (-32768)))) =
      some 32767 := by decide

/-- A value of this session, and bytes at the end of a store that a value of another session has and has not. -/
theorem test_meets_SavestateAccessorsReadAndWriteEveryItem :
    let sv : Saved := { Saved.default with arb := ⟨true, true, 5, true⟩ }
    sv.legal = true ∧ sv.wf = true ∧ sv.sramLen = State.reset.session.sramLen ∧ sv.eepLen = State.reset.session.eepLen ∧
    0xFFFF < State.reset.session.sramLen ∧ 0xFFFF < sv.sramLen ∧ ¬ 0xFFFF < { sv with sramLen := 0xFFFF }.sramLen ∧
    0 < State.reset.session.eepLen := by decide

/-- A legal state, and operations after it that complete. -/
theorem test_meets_RestoringASavestateUndoesWhatFollowed :
    State.reset.legal = true ∧ (∀ i ∈ [Instr.keydown 7, .ramWr .byte 0xFF0000#24 0x12#16], ∀ c, i ≠ .poweron c) ∧
    after State.ram (performAll [.keydown 7, .ramWr .byte 0xFF0000#24 0x12#16] .reset) = some [(0, 0x12#8)] :=
  ⟨by decide, by simp, by decide⟩

/-- A session of each of the three kinds: without its hooks, with a tap on the first member port, and legal. -/
theorem test_meets_PoweronSetsTheResetValues :
    (let c : PowerConfig := { PowerConfig.default with kind := .quirk };
      c.kind = .quirk ∧ c.quirk = none) ∧
    (let c : PowerConfig := { PowerConfig.default with types := defaultTypes.set 3 .tap };
      ¬ (c.kind = .quirk ∧ c.quirk = none) ∧ ∃ v : Fin 15, c.types[v] = .tap ∧ 2 < v.val) ∧
    (let c : PowerConfig := { PowerConfig.default with types := defaultTypes.set 2 .tap };
      ¬ (c.kind = .quirk ∧ c.quirk = none) ∧ ∀ v : Fin 15, c.types[v] = .tap → v.val ≤ 2) := by decide

/-- A bus transaction, and a call that is neither SETSTATE nor POWERON. -/
theorem test_meets_EachAgentChangesOnlyItsOwnSide :
    exec (.unusedRd .byte 0) .reset = .next (State.reset.withResult (.byte 0xFF#8)) ∧
    (Instr.unusedRd .byte 0).isCall = false ∧
    exec (.keydown 0) .reset = .next .reset ∧ (Instr.keydown 0).isCall = true ∧
    (∀ sv, Instr.keydown 0 ≠ .setstate sv) ∧ (∀ c, Instr.keydown 0 ≠ .poweron c) :=
  ⟨rfl, rfl, rfl, rfl, by simp, by simp⟩

theorem test_meets_ReadsChangeNoState :
    (Instr.secRdb 0).isRead = true ∧ exec (.secRdb 0) .reset = .next (State.reset.withResult (.byte 0#8)) ∧
    (Instr.unusedRd .byte 0).isRead = true ∧ (∀ a, Instr.unusedRd .byte 0 ≠ .secRdb a) ∧
    (∀ a, Instr.unusedRd .byte 0 ≠ .secRdw a) ∧ (∀ sz a, Instr.unusedRd .byte 0 ≠ .vidRd sz a) :=
  ⟨rfl, rfl, rfl, by simp, by simp, by simp⟩

/-- A bus request reaches no device. -/
theorem test_meets_OnlyPortWritesAndDeviceCallsReachTheDevices :
    (Instr.busreqWr .word 0xA11100#24 0#16 (at' 0 0)).isCall = false ∧
    exec (.busreqWr .word 0xA11100#24 0#16 (at' 0 0)) .reset = .next .reset ∧
    ∀ (p : Fin 3) sz a d, Instr.busreqWr .word 0xA11100#24 0#16 (at' 0 0) ≠ dataWr p sz a d ∧
      Instr.busreqWr .word 0xA11100#24 0#16 (at' 0 0) ≠ ctrlWr p sz a d ∧
      Instr.busreqWr .word 0xA11100#24 0#16 (at' 0 0) ≠ txWr p sz a d ∧
      Instr.busreqWr .word 0xA11100#24 0#16 (at' 0 0) ≠ sctrlWr p sz a d := by
  refine ⟨rfl, rfl, fun p sz a d => ?_⟩
  fin_cases p <;> simp [dataWr, ctrlWr, txWr, sctrlWr]

end Sys2Proof.Tests
end

section
/-! PROOF. The address-space router (40_router.md): its unused banks and invalid decodes, and writes of work RAM. -/

namespace Sys2Proof.Machine

/-! ## Unused banks and invalid decodes -/

/-- What UNUSED.RD, IOINV.RD and VIDINV.RD leave (R132, R144, R148). -/
theorem finish_sentinel_eq (sz : Size) (s : State) : s.finish (sentinel sz) = .next { s with result := allOnes sz } := by
  rw [finish_eq, sentinel_eq]

/-- Settles O11: each of the three reads completes with the sentinel. -/
theorem unclaimedReadsAreAllOnes : Obligations.UnclaimedReadsAreAllOnes := fun s sz _ =>
  ⟨finish_sentinel_eq sz s, finish_sentinel_eq sz s, finish_sentinel_eq sz s⟩

/-- Settles O12: each of the three writes completes with no result and no update before it. -/
theorem unclaimedWritesChangeNothing : Obligations.UnclaimedWritesChangeNothing := fun s _ _ _ =>
  ⟨finish_eq s .none, finish_eq s .none, finish_eq s .none⟩

/-! ## Writes of work RAM -/

@[simp] theorem State.ramByte_withResult (s : State) (r : Result) (i : Nat) :
    (s.withResult r).ramByte i = s.ramByte i := rfl

/-- The bytes at two neighbouring indexes stored one after the other: the stores do not overlap. -/
theorem State.ramByte_setRamByte_succ (s : State) (e i : Nat) (h l : Byte) :
    ((s.setRamByte e h).setRamByte (e + 1) l).ramByte i =
      if i = e then h else if i = e + 1 then l else s.ramByte i := by
  rw [ramByte_setRamByte, ramByte_setRamByte]
  by_cases hi : i = e
  · rw [if_neg (by omega), if_pos hi, if_pos hi]
  · rw [if_neg hi, if_neg hi]

/-- A byte write stores at the index of its own address (R135). -/
theorem exec_ramWr_byte (a : Addr) (d : Word) (s : State) :
    exec (.ramWr .byte a d) s = (s.setRamByte (a.toNat % 0x10000) (loByte d)).finish .none := by
  rw [← ramIndex_eq]
  rfl

/-- A word write stores its high byte at the even index, then its low byte at the next (R135). -/
theorem exec_ramWr_word (a : Addr) (d : Word) (s : State) :
    exec (.ramWr .word a d) s =
      ((s.setRamByte (a.toNat % 0x10000 / 2 * 2) (hiByte d)).setRamByte
        (a.toNat % 0x10000 / 2 * 2 + 1) (loByte d)).finish .none := by
  rw [← ramIndex_evenAddr_succ, ← ramIndex_evenAddr]
  exact congrArg (State.finish · .none) (writeLanes_word a d (fun a v t => t.setRamByte (ramIndex a) v) s)

/-- Settles O16: at each width the write is one store or two, and the law of `setRamByte` gives every index. -/
theorem ramWriteStoresTheIndexedBytes : Obligations.RamWriteStoresTheIndexedBytes := by
  intro s sz a d
  cases sz with
  | byte =>
    refine ⟨_, exec_ramWr_byte a d s, rfl, fun i => ?_⟩
    rw [State.ramByte_withResult, State.ramByte_setRamByte]
    rfl
  | word =>
    refine ⟨_, exec_ramWr_word a d s, rfl, fun i => ?_⟩
    rw [State.ramByte_withResult, State.ramByte_setRamByte_succ]
    rfl

end Sys2Proof.Machine
end

section
/-! PROOF. The controller devices (44_io_devices.md): what the plain pads do with the levels they receive. -/

namespace Sys2Proof.Machine

/-- Settles O37: once the type is fixed, `plainLines` takes its first row, which adds no reaction to the stored levels
(R273). -/
theorem plainPadsOnlyKeepTheLines : Obligations.PlainPadsOnlyKeepTheLines := by
  rintro d new (h | h | h) <;> simp only [plainLines, h]

end Sys2Proof.Machine
end

section
/-! PROOF. What an operation can do, said once: every bus read, every byte lane of a bus write and every environment
call, so that a rule of the whole machine is a case analysis over what stands here and not over the dispatch. -/

namespace Sys2Proof.Machine

/-! ## Bus reads -/

theorem hasSize_readLanes (sz : Size) (a : Addr) (lane : Addr → Byte) : (readLanes sz a lane).hasSize sz = true := by
  cases sz <;> rfl

theorem hasSize_sentinel (sz : Size) : (sentinel sz).hasSize sz = true := by cases sz <;> rfl

/-- The reads that ask an external collaborator: SEC and VID (00_scope.md R14). -/
def Forwarded (i : Instr) : Prop :=
  (∃ a, i = .secRdb a) ∨ (∃ a, i = .secRdw a) ∨ ∃ sz a, i = .vidRd sz a

/-- What a bus read does in state `s`: it hands out a value of its width, and a forwarded one may use up one draw. -/
def ReadsAs (i : Instr) (s : State) : Prop :=
  ∃ r sz, i.size = some sz ∧ r.hasSize sz = true ∧
    (exec i s = s.finish r ∨ Forwarded i ∧ exec i s = s.draw.finish r)

/-- A read of the secondary's space, at either width (40_router.md R138, R139). -/
theorem readsAs_of_sec {i : Instr} {s : State} {a16 : BitVec 16} {shown : Byte → Result} {sz : Size}
    (hi : exec i s = secReadWith a16 shown s) (hf : Forwarded i) (hsz : i.size = some sz)
    (hr : ∀ b, (shown b).hasSize sz = true) : ReadsAs i s := by
  by_cases h : s.arb.windowOpen = true
  · exact ⟨_, sz, hsz, hr _, .inr ⟨hf, hi.trans (if_pos h)⟩⟩
  · exact ⟨_, sz, hsz, hr _, .inl (hi.trans (if_neg h))⟩

/-- Everything a bus read can do (20_memory.md R79). -/
theorem exec_read {i : Instr} (h : i.isRead = true) (s : State) : ReadsAs i s := by
  cases i with
  | secRdb a => exact readsAs_of_sec (sz := .byte) rfl (.inl ⟨a, rfl⟩) rfl fun _ => rfl
  | secRdw a => exact readsAs_of_sec (sz := .word) (shown := fun b => .word (b ++ b)) rfl (.inr (.inl ⟨a, rfl⟩)) rfl fun _ => rfl
  | vidRd sz a =>
    cases sz with
    | byte => exact ⟨_, .byte, rfl, rfl, .inr ⟨.inr (.inr ⟨.byte, a, rfl⟩), rfl⟩⟩
    | word => exact ⟨_, .word, rfl, rfl, .inr ⟨.inr (.inr ⟨.word, a, rfl⟩), rfl⟩⟩
  | sresetRd sz _ | ioinvRd sz _ | vidinvRd sz _ | unusedRd sz _ =>
    exact ⟨_, sz, rfl, hasSize_sentinel sz, .inl rfl⟩
  | auxRd sz a | versionRd sz a | data1Rd sz a | data2Rd sz a | data3Rd sz a | ctrl1Rd sz a | ctrl2Rd sz a
  | ctrl3Rd sz a | txdata1Rd sz a | rxdata1Rd sz a | sctrl1Rd sz a | txdata2Rd sz a | rxdata2Rd sz a | sctrl2Rd sz a
  | txdata3Rd sz a | rxdata3Rd sz a | sctrl3Rd sz a | busreqRd sz a _ | romRd sz _ a | ramRd sz a =>
    exact ⟨_, sz, rfl, hasSize_readLanes sz a _, .inl rfl⟩
  | _ => cases h

/-! ## Bus writes -/

/-- What one byte lane of the bus write `i` can make of a state. -/
inductive LaneWrite (i : Instr) : State → State → Prop
  /-- A byte that is discarded. -/
  | keep (s : State) : LaneWrite i s s
  /-- A page selector, never that of window 0 (41_cartridge_mapper.md R176). -/
  | selector (s : State) (k : Fin 8) (x : BitVec 6) (hk : k ≠ 0) : LaneWrite i s (s.setPage k x)
  /-- A byte of save memory, at an index of the store (R171). -/
  | store (s : State) (c : Addr) (st : Store) (j : Nat) (v : Byte) (h : Session.saveSel s.session c = some (st, j)) :
    LaneWrite i s (s.setStoreByte st j v)
  /-- The state of a QUIRK cartridge (R171, R173). -/
  | hook (s : State) (q : Quirk) (st : List Byte) (h : s.mapper = .quirk q) :
    LaneWrite i s (s.withMapper (.quirk { q with state := st }))
  /-- A byte of work RAM (40_router.md R135). -/
  | ram (s : State) (j : Nat) (v : Byte) (h : j < 0x10000) : LaneWrite i s (s.setRamByte j v)
  /-- A data or control register, whose levels the direct device is given (43_io_ports.md R217, R219). -/
  | port (s : State) (p : Fin 3) (x : Port) (h : ∃ sz a d, i = dataWr p sz a d ∨ i = ctrlWr p sz a d) :
    LaneWrite i s (portUpdate p (s.setPort p x))
  /-- A transmit register (R222). -/
  | serialTx (s : State) (p : Fin 3) (v : Byte) (h : ∃ sz a d, i = txWr p sz a d) : LaneWrite i s (writeSerTx p v s)
  /-- A serial control register (R230). -/
  | serialCtrl (s : State) (p : Fin 3) (v : Byte) (h : ∃ sz a d, i = sctrlWr p sz a d) :
    LaneWrite i s (writeSerCtrl p v s)
  /-- The request line (42_bus_arbiter.md R204). -/
  | request (s : State) (clk : Clk) (want : Bool) (h : ∃ sz a d, i = .busreqWr sz a d clk) :
    LaneWrite i s (requestRelease clk want s)
  /-- The reset line (R206). -/
  | reset (s : State) (on : Bool) (h : ∃ sz a d, i = .sresetWr sz a d) : LaneWrite i s (resetLine on s)
  /-- A write passed on to a collaborator (40_router.md R140, R141, R147). -/
  | forward (s : State) (e : Event)
    (h : (∃ a d, i = .secWrb a d) ∨ (∃ a d, i = .secWrw a d) ∨ ∃ sz a d, i = .vidWr sz a d) : LaneWrite i s (s.emit e)

/-- What a bus write does in state `s`: its byte lanes one after another, and no result. -/
def WritesAs (i : Instr) (s : State) : Prop :=
  ∃ u, Relation.ReflTransGen (LaneWrite i) s u ∧ exec i s = u.finish .none

theorem writesAs_of_keep {i : Instr} {s : State} (h : exec i s = s.finish .none) : WritesAs i s := ⟨s, .refl, h⟩

/-- A write by lanes takes its lanes one after another (20_memory.md R76). -/
theorem writesAs_of_lanes {i : Instr} {s : State} {sz : Size} {a : Addr} {d : Word} {lane : Addr → Byte → State → State}
    (hi : exec i s = (writeLanes sz a d lane s).finish .none) (h : ∀ a v s, LaneWrite i s (lane a v s)) :
    WritesAs i s := by
  refine ⟨_, ?_, hi⟩
  cases sz with
  | byte => exact .single (h _ _ _)
  | word => exact .tail (.single (h _ _ _)) (h _ _ _)

/-- The write of a register on the LO lane. -/
theorem writesAs_of_register {i : Instr} {s : State} {sz : Size} {a : Addr} {d : Word} {w : Byte → State → State}
    (hi : exec i s = writeRegister sz a d w s) (h : ∀ v s, LaneWrite i s (w v s)) : WritesAs i s :=
  writesAs_of_lanes hi fun a v s => by
    cases hl : onLoLane a <;> simp only [toLoRegister, hl, if_true, Bool.false_eq_true, if_false]
    · exact .keep s
    · exact h v s

/-- The write of a register on the HI lane. -/
theorem writesAs_of_hiRegister {i : Instr} {s : State} {sz : Size} {a : Addr} {d : Word} {w : Byte → State → State}
    (hi : exec i s = (writeLanes sz a d (toHiRegister w) s).finish .none) (h : ∀ v s, LaneWrite i s (w v s)) :
    WritesAs i s :=
  writesAs_of_lanes hi fun a v s => by
    cases hl : onLoLane a <;> simp only [toHiRegister, hl, if_true, Bool.false_eq_true, if_false]
    · exact h v s
    · exact .keep s

theorem laneWrite_psel (i : Instr) (a : Addr) (v : Byte) (s : State) : LaneWrite i s (pselWrite (auxIndex a) v s) := by
  rw [pselWrite_eq, toLoRegister]
  split
  · split
    · exact .keep s
    · next h => exact .selector s _ _ fun e => h (congrArg Fin.val e)
  · exact .keep s

theorem laneWrite_aux (i : Instr) (a : Addr) (v : Byte) (s : State) :
    LaneWrite i s (cmAuxWriteByte (auxIndex a) v s) := by
  unfold cmAuxWriteByte
  split
  · next q h => exact .hook s q _ h
  · split
    · exact laneWrite_psel i a v s
    · exact .keep s
  · exact .keep s
  · exact .keep s

theorem laneWrite_cartridge (i : Instr) (c : Addr) (v : Byte) (s : State) : LaneWrite i s (cmWriteByte c v s) := by
  rw [cmWriteByte_eq]
  split
  · next h => exact .store s c _ _ v h
  · next q _ h => exact .hook s q _ h
  · exact .keep s

theorem writesAs_of_data {i : Instr} {s : State} {sz : Size} {a : Addr} {d : Word} (p : Fin 3)
    (hd : i = dataWr p sz a d) (hi : exec i s = writeRegister sz a d (writeData p) s) : WritesAs i s :=
  writesAs_of_register hi fun _ s => .port s p _ ⟨sz, a, d, .inl hd⟩

theorem writesAs_of_ctrl {i : Instr} {s : State} {sz : Size} {a : Addr} {d : Word} (p : Fin 3)
    (hd : i = ctrlWr p sz a d) (hi : exec i s = writeRegister sz a d (writeCtrl p) s) : WritesAs i s :=
  writesAs_of_register hi fun _ s => .port s p _ ⟨sz, a, d, .inr hd⟩

theorem writesAs_of_serialTx {i : Instr} {s : State} {sz : Size} {a : Addr} {d : Word} (p : Fin 3)
    (hd : i = txWr p sz a d) (hi : exec i s = writeRegister sz a d (writeSerTx p) s) : WritesAs i s :=
  writesAs_of_register hi fun v s => .serialTx s p v ⟨sz, a, d, hd⟩

theorem writesAs_of_serialCtrl {i : Instr} {s : State} {sz : Size} {a : Addr} {d : Word} (p : Fin 3)
    (hd : i = sctrlWr p sz a d) (hi : exec i s = writeRegister sz a d (writeSerCtrl p) s) : WritesAs i s :=
  writesAs_of_register hi fun v s => .serialCtrl s p v ⟨sz, a, d, hd⟩

/-- A write into the secondary's space, at either width (40_router.md R140, R141). -/
theorem writesAs_of_sec {i : Instr} {s : State} {a16 : BitVec 16} {v : Byte} (hi : exec i s = secWriteWith a16 v s)
    (hf : (∃ a d, i = .secWrb a d) ∨ (∃ a d, i = .secWrw a d) ∨ ∃ sz a d, i = .vidWr sz a d) : WritesAs i s := by
  by_cases h : s.arb.windowOpen = true
  · exact ⟨_, .single (.forward s _ hf), hi.trans (if_pos h)⟩
  · exact writesAs_of_keep (hi.trans (if_neg h))

/-- Everything a bus write can do. -/
theorem exec_write {i : Instr} (hc : i.isCall = false) (h : i.isRead = false) (s : State) : WritesAs i s := by
  cases i with
  | pselWr sz a d => exact writesAs_of_lanes rfl (laneWrite_psel _)
  | auxWr sz a d => exact writesAs_of_lanes rfl (laneWrite_aux _)
  | romWr sz r a d => exact writesAs_of_lanes rfl fun a => laneWrite_cartridge _ (cartAddr r a)
  | ramWr sz a d => exact writesAs_of_lanes rfl fun a v s => .ram s _ v (ramIndex_lt a)
  | secWrb a d => exact writesAs_of_sec rfl (.inl ⟨a, d, rfl⟩)
  | secWrw a d => exact writesAs_of_sec rfl (.inr (.inl ⟨a, d, rfl⟩))
  | vidWr sz a d =>
    cases sz with
    | byte => exact ⟨_, .single (.forward s _ (.inr (.inr ⟨.byte, a, d, rfl⟩))), rfl⟩
    | word => exact ⟨_, .single (.forward s _ (.inr (.inr ⟨.word, a, d, rfl⟩))), rfl⟩
  | busreqWr sz a d clk => exact writesAs_of_hiRegister rfl fun v s => .request s clk _ ⟨sz, a, d, rfl⟩
  | sresetWr sz a d => exact writesAs_of_hiRegister rfl fun v s => .reset s _ ⟨sz, a, d, rfl⟩
  | data1Wr | data2Wr | data3Wr => exact writesAs_of_data _ rfl rfl
  | ctrl1Wr => exact writesAs_of_ctrl 0 rfl rfl
  | ctrl2Wr => exact writesAs_of_ctrl 1 rfl rfl
  | ctrl3Wr => exact writesAs_of_ctrl 2 rfl rfl
  | txdata1Wr => exact writesAs_of_serialTx 0 rfl rfl
  | txdata2Wr => exact writesAs_of_serialTx 1 rfl rfl
  | txdata3Wr => exact writesAs_of_serialTx 2 rfl rfl
  | sctrl1Wr => exact writesAs_of_serialCtrl 0 rfl rfl
  | sctrl2Wr => exact writesAs_of_serialCtrl 1 rfl rfl
  | sctrl3Wr => exact writesAs_of_serialCtrl 2 rfl rfl
  | versionWr | rxdata1Wr | rxdata2Wr | rxdata3Wr => exact writesAs_of_register rfl fun _ s => .keep s
  | ioinvWr | vidinvWr | unusedWr => exact writesAs_of_keep rfl
  | _ => simp [Instr.isCall, Instr.isRead] at hc h

/-- A property every byte lane keeps is kept by the whole write. -/
theorem LaneWrite.keeps {i : Instr} {P : State → Prop} (h : ∀ s t, LaneWrite i s t → P s → P t) {s t : State}
    (hst : Relation.ReflTransGen (LaneWrite i) s t) (hs : P s) : P t := by
  induction hst with
  | refl => exact hs
  | tail _ hl ih => exact h _ _ hl ih

/-- What every byte lane leaves as it was, the whole write leaves as it was. -/
theorem LaneWrite.frame {i : Instr} {α : Type} {f : State → α} (h : ∀ s t, LaneWrite i s t → f t = f s) {s t : State}
    (hst : Relation.ReflTransGen (LaneWrite i) s t) : f t = f s :=
  LaneWrite.keeps (P := fun u => f u = f s) (fun u v huv hu => (h u v huv).trans hu) hst rfl

/-! ## Environment calls -/

/-- What a call other than SETSTATE and POWERON can make of the record on virtual port `v`. -/
inductive DeviceCall (v : Fin 15) : Device → Device → Prop
  | keep (d : Device) : DeviceCall v d d
  /-- SCANLINE (44_io_devices.md R290). -/
  | tick (d : Device) : DeviceCall v d (tick d)
  /-- SETTYPE (45_host_ops.md R311). -/
  | recreate (d : Device) (ty : DevType) (h : typeAllowed v ty = true) : DeviceCall v d (d.recreate ty)
  /-- SETKEYMAP (R312). -/
  | release (d : Device) : DeviceCall v d { d with buttons := unpressed d.type }
  /-- KEYDOWN and KEYUP (R314, R315). -/
  | key (d : Device) (k : KeyRow) (code : BitVec 16) (down : Bool) : DeviceCall v d (d.key k code down)
  /-- MOUSEMOVE (R316). -/
  | motion (d : Device) (x y : BitVec 16) (h : d.type = .mouse) : DeviceCall v d { d with relX := x, relY := y }

/-- What a call does in state `s`: records and key maps change, and a result is handed out. -/
def CallsAs (i : Instr) (s : State) : Prop :=
  ∃ ds ks r, exec i s = .next { s with devices := ds, keyMap := ks, result := r } ∧
    ∀ v : Fin 15, DeviceCall v s.devices[v] ds[v]

theorem callsAs_of_reject {i : Instr} {s : State} (h : exec i s = s.reject) : CallsAs i s :=
  ⟨s.devices, s.keyMap, .reject, h, fun _ => .keep _⟩

theorem getElem_ofFn_fin {α : Type} {n : Nat} (f : Fin n → α) (i : Fin n) : (Vector.ofFn f)[i] = f i :=
  Vector.getElem_ofFn i.isLt

/-- A call that changes one record. -/
theorem deviceCall_set {ds : Vector Device 15} {w : Fin 15} {d : Device} (h : DeviceCall w ds[w] d) (v : Fin 15) :
    DeviceCall v ds[v] (ds.set w d)[v] := by
  rw [getElem_set_fin]
  split
  · next e => subst e; exact h
  · exact .keep _

theorem callsAs_settype (v : BitVec 4) (c : Byte) (s : State) : CallsAs (.settype v c) s := by
  have he : exec (.settype v c) s = execSettype v c s := rfl
  unfold execSettype at he
  split at he
  · next w ty _ _ =>
    split at he
    · next hok => exact ⟨_, _, _, he, deviceCall_set (.recreate _ ty hok)⟩
    · exact callsAs_of_reject he
  · exact callsAs_of_reject he

theorem callsAs_setkeymap (v : BitVec 4) (keys : List (BitVec 16)) (s : State) : CallsAs (.setkeymap v keys) s := by
  have he : exec (.setkeymap v keys) s = execSetkeymap v keys s := rfl
  unfold execSetkeymap at he
  split at he
  · exact ⟨_, _, _, he, deviceCall_set (.release _)⟩
  · exact callsAs_of_reject he

theorem callsAs_mousemove (v : BitVec 4) (dx dy : BitVec 16) (s : State) : CallsAs (.mousemove v dx dy) s := by
  have he : exec (.mousemove v dx dy) s = execMousemove v dx dy s := rfl
  unfold execMousemove at he
  split at he
  · split at he
    · next hm => exact ⟨_, _, _, he, deviceCall_set (.motion _ _ _ hm)⟩
    · exact callsAs_of_reject he
  · exact callsAs_of_reject he

theorem callsAs_key {i : Instr} {code : BitVec 16} {down : Bool} {s : State}
    (he : exec i s = (keyEvent code down s).finish .none) : CallsAs i s := by
  unfold keyEvent at he
  split at he
  · exact ⟨_, _, _, he, fun _ => .keep _⟩
  · refine ⟨_, _, _, he, fun v => ?_⟩
    rw [State.withDevices_devices, getElem_ofFn_fin]
    exact .key _ _ _ _

/-- Everything a call other than SETSTATE and POWERON can do (60_exceptions.md R342). -/
theorem exec_call {i : Instr} (h : i.isCall = true) (hs : ∀ sv, i ≠ .setstate sv) (hp : ∀ c, i ≠ .poweron c)
    (s : State) : CallsAs i s := by
  cases i with
  | poweron c => exact absurd rfl (hp c)
  | setstate sv => exact absurd rfl (hs sv)
  | scanline =>
    refine ⟨_, s.keyMap, _, rfl, fun v => ?_⟩
    rw [State.withDevices_devices, getElem_ofFn_fin]
    exact .tick _
  | settype v c => exact callsAs_settype v c s
  | setkeymap v keys => exact callsAs_setkeymap v keys s
  | keydown code => exact callsAs_key rfl
  | keyup code => exact callsAs_key rfl
  | mousemove v dx dy => exact callsAs_mousemove v dx dy s
  | getstate => exact ⟨_, _, _, rfl, fun _ => .keep _⟩
  | _ => cases h

end Sys2Proof.Machine
end

section
/-! PROOF. The invariants of reachable states (10_state.md R50): what the check of SETSTATE decides, and that every
operation keeps them. -/

namespace Sys2Proof.Machine

/-! ## One record -/

/-- I4 to I8 of 10_state.md R50 for one record, item by item. -/
structure Device.Sound (d : Device) : Prop where
  counter : d.counter.toNat ≤ counterMax d.type
  scanlines : d.scanlines.toNat ≤ if d.type = .pad6 then 24 else 0
  serCtrl : ∀ b, b < 3 → d.serCtrl.getLsbD b = false
  buttons : ∀ b, nbtn d.type ≤ b → b < 12 → d.buttons.getLsbD b = !decide (d.type = .mouse)
  motion : d.type ≠ .mouse → d.relX = 0#16 ∧ d.relY = 0#16 ∧ d.latX = 0#8 ∧ d.latY = 0#8 ∧ d.latFlags = 0#4

theorem ushiftRight_eq_iff {w : Nat} (x y : BitVec w) (n : Nat) :
    x >>> n = y >>> n ↔ ∀ b, n ≤ b → b < w → x.getLsbD b = y.getLsbD b := by
  constructor
  · intro h b hn _
    have hb := congrArg (BitVec.getLsbD · (b - n)) h
    simpa [Nat.add_sub_cancel' hn] using hb
  · intro h
    apply BitVec.eq_of_getLsbD_eq
    intro i hi
    rw [BitVec.getLsbD_ushiftRight, BitVec.getLsbD_ushiftRight]
    by_cases hlt : n + i < w
    · exact h _ (Nat.le_add_right n i) hlt
    · rw [BitVec.getLsbD_of_ge _ _ (by omega), BitVec.getLsbD_of_ge _ _ (by omega)]

theorem and_seven_eq_zero_iff (x : Byte) : x &&& 0x07#8 = 0#8 ↔ ∀ b, b < 3 → x.getLsbD b = false := by
  have h7 : ∀ i : Fin 8, (0x07#8).getLsbD i.val = decide (i.val < 3) := by decide
  constructor
  · intro h b hb
    have hx := congrArg (BitVec.getLsbD · b) h
    simpa [h7 ⟨b, by omega⟩, hb] using hx
  · intro h
    apply BitVec.eq_of_getLsbD_eq
    intro i hi
    rw [BitVec.getLsbD_and, h7 ⟨i, hi⟩, BitVec.getLsbD_zero]
    by_cases hb : i < 3
    · rw [h i hb, Bool.false_and]
    · simp [hb]

/-- An unpressed button is 1 on a pad and 0 on a mouse (10_state.md R40). -/
theorem getLsbD_unpressed (ty : DevType) {b : Nat} (hb : b < 12) :
    (unpressed ty).getLsbD b = !decide (ty = .mouse) := by
  have h1 : ∀ i : Fin 12, (0xFFF#12).getLsbD i.val = true := by decide
  cases ty with
  | mouse => exact BitVec.getLsbD_zero
  | _ => exact h1 ⟨b, hb⟩

theorem Device.legal_iff (d : Device) : d.legal = true ↔ d.Sound := by
  have hb : d.buttons >>> nbtn d.type = unpressed d.type >>> nbtn d.type ↔
      ∀ b, nbtn d.type ≤ b → b < 12 → d.buttons.getLsbD b = !decide (d.type = .mouse) :=
    (ushiftRight_eq_iff ..).trans
      (forall_congr' fun _ => forall_congr' fun _ => forall_congr' fun h => by rw [getLsbD_unpressed _ h])
  simp only [Device.legal, Bool.and_eq_true, Bool.or_eq_true, decide_eq_true_eq, beq_iff_eq, hb,
    and_seven_eq_zero_iff]
  constructor
  · rintro ⟨⟨⟨⟨h1, h2⟩, h3⟩, h4⟩, h5⟩
    exact ⟨h1, h2, h3, h4, fun hm => by simpa [and_assoc] using h5.resolve_left hm⟩
  · intro h
    refine ⟨⟨⟨⟨h.counter, h.scanlines⟩, h.serCtrl⟩, h.buttons⟩, ?_⟩
    by_cases hm : d.type = .mouse
    · exact .inl hm
    · exact .inr (by simpa [and_assoc] using h.motion hm)

/-- The record on virtual port `v` meets I3 to I8. -/
def RecordLegal (v : Fin 15) (d : Device) : Prop := (d.type = .tap → v.val ≤ 2) ∧ d.Sound

theorem Saved.legal_iff (sv : Saved) :
    sv.legal = true ↔ sv.pageMap[0] = 0#6 ∧ ∀ v : Fin 15, RecordLegal v sv.devices[v] := by
  simp only [Saved.legal, typesLegal, Bool.and_eq_true, beq_iff_eq, decide_eq_true_eq, typeAllowed_iff,
    Device.legal_iff, RecordLegal, forall_and, and_assoc]

/-- The scanline item, as I5 says it. -/
theorem scanlines_le_iff (d : Device) :
    (d.scanlines.toNat ≤ if d.type = .pad6 then 24 else 0) ↔
      d.scanlines.toNat ≤ 24 ∧ (d.type ≠ .pad6 → d.scanlines = 0#5) := by
  by_cases h : d.type = .pad6
  · simp [h]
  · rw [if_neg h]
    constructor
    · intro h0
      exact ⟨by omega, fun _ => BitVec.eq_of_toNat_eq (Nat.le_zero.mp h0)⟩
    · rintro ⟨_, h0⟩
      rw [h0 h]
      exact Nat.le_refl 0

/-- Settles O9: the check is a conjunction of one decidable item for each invariant, and bit by bit the masks and the
shifts in it are what I6 and I7 say. -/
theorem legalSavedStateMeansI2ToI8 : Obligations.LegalSavedStateMeansI2ToI8 := by
  intro sv
  have hmax : ∀ ty, counterMax ty =
      match ty with
      | .pad6 => 3 | .mouse => 9 | .tap => 3 | .none | .pad2 | .pad3 => 0 := by
    intro ty; cases ty <;> rfl
  rw [Saved.legal_iff]
  refine and_congr_right fun _ => forall_congr' fun v => ?_
  constructor
  · rintro ⟨ht, h⟩
    exact ⟨fun e => Nat.lt_succ_of_le (ht e), h.counter.trans_eq (hmax _), (scanlines_le_iff _).mp h.scanlines, h.serCtrl,
      h.buttons, h.motion⟩
  · rintro ⟨ht, hc, hs, h1, h2, h3⟩
    exact ⟨fun e => Nat.le_of_lt_succ (ht e), hc.trans_eq (hmax _).symm, (scanlines_le_iff _).mpr hs, h1, h2, h3⟩

/-! ## What every change of a record keeps -/

namespace Device.Sound

variable {d : Device}

theorem powerOn (ty : DevType) : (Device.powerOn ty).Sound where
  counter := Nat.zero_le _
  scanlines := Nat.zero_le _
  serCtrl := fun _ _ => BitVec.getLsbD_zero
  buttons := fun _ _ hb => getLsbD_unpressed ty hb
  motion := fun _ => ⟨rfl, rfl, rfl, rfl, rfl⟩

theorem recreate (h : d.Sound) (ty : DevType) : (d.recreate ty).Sound :=
  { powerOn ty with serCtrl := h.serCtrl }

theorem release (h : d.Sound) : { d with buttons := unpressed d.type }.Sound :=
  { h with buttons := fun _ _ hb => getLsbD_unpressed d.type hb }

theorem key (h : d.Sound) (k : KeyRow) (code : BitVec 16) (down : Bool) : (d.key k code down).Sound :=
  { h with
    buttons := fun b hn hb => by
      have hbit := getLsbD_key d k code down ⟨b, hb⟩
      rw [if_neg fun hc => absurd hc.1 (Nat.not_lt.mpr hn)] at hbit
      exact hbit.trans (h.buttons b hn hb) }

theorem motion_of_mouse (h : d.Sound) (hm : d.type = .mouse) (x y : BitVec 16) :
    { d with relX := x, relY := y }.Sound :=
  { h with motion := fun hne => absurd hm hne }

theorem tick (h : d.Sound) : (tick d).Sound := by
  unfold Machine.tick
  split
  · next hp =>
    have hs := h.scanlines
    rw [if_pos hp] at hs
    split
    · exact { h with counter := Nat.zero_le _, scanlines := Nat.zero_le _ }
    · next h25 =>
      refine { h with scanlines := ?_ }
      simp only [sixbTimeout] at h25
      simp only [BitVec.toNat_add, BitVec.toNat_ofNat, if_pos hp]
      omega
  · exact h

theorem serialTx (h : d.Sound) (v : Byte) : { d with serLastTx := v }.Sound := { h with }

theorem serialCtrl (h : d.Sound) (v : Byte) : { d with serCtrl := v &&& 0xF8#8 }.Sound :=
  { h with
    serCtrl := (and_seven_eq_zero_iff _).mp (by rw [BitVec.and_assoc]; exact BitVec.and_zero) }

theorem tapSelect (h : d.Sound) (ht : d.type = .tap) (new : Byte) : (tapSelect new d).Sound := by
  have hc := h.counter
  rw [ht] at hc
  refine { h with counter := ?_ }
  rw [show (Machine.tapSelect new d).type = d.type from rfl, ht]
  simp only [Machine.tapSelect, counterMax] at hc ⊢
  split
  · exact Nat.zero_le _
  · split
    · rw [BitVec.toNat_ofNat]; omega
    · exact hc

theorem pad6Edge (h : d.Sound) (ht : d.type = .pad6) (fall rise : Bool) : (pad6Edge fall rise d).Sound := by
  have hc : ({ d with scanlines := 0#5 } : Device).Sound := { h with scanlines := Nat.zero_le _ }
  have hr : ∀ e : Device, e.Sound → e.type = .pad6 →
      ({ e with counter := BitVec.ofNat 4 ((e.counter.toNat + 1) % 4) } : Device).Sound := fun e he hte =>
    { he with counter := by simp only [BitVec.toNat_ofNat, hte, counterMax]; omega }
  cases fall <;> cases rise
  · exact h
  · exact hr _ hc ht
  · exact hc
  · exact hr _ hc ht

theorem mouseEdge (h : d.Sound) (ht : d.type = .mouse) (fall rise : Bool) : (mouseEdge fall rise d).Sound := by
  have hm : counterMax d.type = 9 := by rw [ht]; rfl
  have hc := h.counter
  unfold Machine.mouseEdge
  split
  · split
    · split
      · exact { h with counter := Nat.le_trans (by decide : 1 ≤ 9) (Nat.le_of_eq hm.symm), motion := fun hne => absurd ht hne }
      · exact h
    · next hne0 =>
      refine { h with counter := ?_ }
      simp only [hm] at hc ⊢
      split
      · exact Nat.zero_le _
      · next hne9 =>
        have : d.counter.toNat ≠ 9 := fun e => hne9 (BitVec.eq_of_toNat_eq e)
        simp only [BitVec.toNat_add, BitVec.toNat_ofNat]
        omega
  · exact h

theorem plainLines (h : d.Sound) (new : Byte) : (plainLines new d).Sound := by
  have h' : ({ d with lastLines := new } : Device).Sound := { h with }
  simp only [Machine.plainLines]
  split
  · exact h'
  · exact h'
  · exact h'
  · next ht => exact h'.pad6Edge ht _ _
  · next ht => exact h'.mouseEdge ht _ _
  · exact h'

end Device.Sound

theorem tick_type (d : Device) : (tick d).type = d.type := by
  unfold tick
  split
  · split <;> rfl
  · rfl

/-- A call keeps every record legal. -/
theorem DeviceCall.legal {v : Fin 15} {d e : Device} (hde : DeviceCall v d e) (h : RecordLegal v d) :
    RecordLegal v e := by
  obtain ⟨ht, hs⟩ := h
  cases hde with
  | keep => exact ⟨ht, hs⟩
  | tick =>
    exact ⟨fun e => ht ((tick_type d).symm.trans e), hs.tick⟩
  | recreate ty hok => exact ⟨(typeAllowed_iff v ty).mp hok, hs.recreate ty⟩
  | release => exact ⟨ht, hs.release⟩
  | key k code down => exact ⟨ht, hs.key k code down⟩
  | motion x y hm => exact ⟨ht, hs.motion_of_mouse hm x y⟩

/-- New line levels keep every record legal. -/
theorem devLines_legal {ds : Vector Device 15} (h : ∀ v : Fin 15, RecordLegal v ds[v]) (p : Fin 3) (new : Byte)
    (v : Fin 15) : RecordLegal v (devLines p new ds)[v] := by
  refine ⟨fun ht => (h v).1 (ht ▸ (devLines_frame p new ds v).1.symm), ?_⟩
  rw [getElem_devLines]
  split
  · next htap =>
    split
    · exact (h _).2.tapSelect htap new
    · split
      · exact (h v).2.plainLines new
      · exact (h v).2
  · split
    · exact (h _).2.plainLines new
    · exact (h v).2

/-! ## The whole state -/

/-- I2 to I8 of 10_state.md R50 and the canonical forms, item by item. -/
structure State.Sound (s : State) : Prop where
  page : s.page 0 = 0#6
  record : ∀ v, RecordLegal v (s.dev v)
  image : s.session.wf = true
  ram : s.ram.wf none 0x10000 = true
  stores : s.sram.wf (some 0xFF#8) s.session.sramLen = true ∧ s.eep.wf (some 0xFF#8) s.session.eepLen = true

theorem State.legal_iff (s : State) : s.legal = true ↔ s.Sound := by
  simp only [State.legal, Saved.wf, Bool.and_eq_true, Saved.legal_iff]
  constructor
  · rintro ⟨⟨⟨hp, hr⟩, hi⟩, ⟨hm, hs⟩, he⟩
    exact ⟨hp, hr, hi, hm, hs, he⟩
  · intro h
    exact ⟨⟨⟨h.page, h.record⟩, h.image⟩, ⟨h.ram, h.stores.1⟩, h.stores.2⟩

/-- Everything a call on the request line can change. -/
theorem requestRelease_frame (clk : Clk) (want : Bool) (s : State) : requestRelease clk want s = { s with
    arb := (requestRelease clk want s).arb, events := (requestRelease clk want s).events } := by
  obtain ⟨_, _, h⟩ | ⟨_, _, h⟩ | ⟨_, h⟩ := requestRelease_cases clk want s
  · rw [h, stopEdge_eq]
  · rw [h, resumeEdge_eq]
  · rw [h]

/-- Everything a call on the reset line can change. -/
theorem resetLine_frame (on : Bool) (s : State) : resetLine on s = { s with
    arb := (resetLine on s).arb, events := (resetLine on s).events } := by
  obtain ⟨_, _, h⟩ | ⟨_, _, h⟩ | ⟨_, h⟩ := resetLine_cases on s <;> rw [h]

namespace State.Sound

variable {s : State}

/-- Records are replaced by legal ones. -/
theorem setDev (h : s.Sound) {v : Fin 15} {d : Device} (hd : RecordLegal v d) : (s.setDev v d).Sound :=
  { h with
    record := fun w => by
      rw [dev_setDev]
      split
      · next e => exact e ▸ hd
      · exact h.record w }

/-- Every byte lane of a bus write keeps the invariants. -/
theorem laneWrite {i : Instr} {t : State} (hst : LaneWrite i s t) (h : s.Sound) : t.Sound := by
  cases hst with
  | keep => exact h
  | selector k x hk => exact { h with page := by rw [page_setPage, if_neg (Ne.symm hk), h.page] }
  | store c st j v hs =>
    rw [setStoreByte_eq]
    exact { h with stores := setStoreByte_wf s (saveSel_lt hs) v h.stores }
  | hook => exact { h with }
  | ram j v hj => exact { h with ram := setRamByte_wf s hj v h.ram }
  | port p x => exact { h with record := fun v => devLines_legal (ds := s.devices) h.record p _ v }
  | serialTx p v => exact h.setDev ⟨(h.record _).1, (h.record _).2.serialTx v⟩
  | serialCtrl p v => exact h.setDev ⟨(h.record _).1, (h.record _).2.serialCtrl v⟩
  | request clk want => rw [requestRelease_frame]; exact { h with }
  | reset on => rw [resetLine_frame]; exact { h with }
  | forward e => exact { h with }

/-- SETSTATE of a legal, well-formed value. -/
theorem load (h : s.Sound) {sv : Saved} (hl : sv.legal = true) (hw : sv.wf = true) : (s.load sv).Sound := by
  obtain ⟨hp, hr⟩ := (Saved.legal_iff sv).mp hl
  simp only [Saved.wf, Bool.and_eq_true] at hw
  exact { page := hp, record := hr, image := h.image, ram := hw.1.1, stores := load_wf s sv }

end State.Sound

/-- POWERON of a well-formed operand leaves a legal state. -/
theorem sound_of_poweron {c : PowerConfig} {s t : State} (hw : c.wf = true) (h : exec (.poweron c) s = .next t) :
    t.Sound := by
  simp only [PowerConfig.wf, Bool.and_eq_true] at hw
  have he : execPoweron c s = .next t := h
  unfold execPoweron at he
  split at he
  · cases he
  · split at he
    · next hty =>
      cases he
      refine { page := rfl, record := fun v => ?_, image := hw.1.1, ram := rfl, stores := ⟨hw.1.2, hw.2⟩ }
      rw [State.dev, getElem_ofFn_fin]
      exact ⟨(typeAllowed_iff v _).mp (hty v), .powerOn _⟩
    · cases he

/-- Every operation with well-formed operands keeps the invariants. -/
theorem sound_of_exec {i : Instr} {s t : State} (hw : i.wf = true) (hs : s.Sound) (h : exec i s = .next t) :
    t.Sound := by
  cases hc : i.isCall with
  | false =>
    cases hr : i.isRead with
    | true =>
      obtain ⟨r, sz, _, _, he | ⟨_, he⟩⟩ := exec_read hr s <;>
        cases Host.Outcome.next.inj (h.symm.trans he) <;> exact { hs with }
    | false =>
      obtain ⟨u, hu, he⟩ := exec_write hc hr s
      cases Host.Outcome.next.inj (h.symm.trans he)
      have hu' : u.Sound := LaneWrite.keeps (fun _ _ hl hs => hs.laneWrite hl) hu hs
      exact { hu' with }
  | true =>
    by_cases hset : ∃ sv, i = .setstate sv
    · obtain ⟨sv, rfl⟩ := hset
      have he : execSetstate sv s = .next t := h
      unfold execSetstate at he
      split at he
      · next hl =>
        cases he
        have hu := hs.load hl hw
        exact { hu with }
      · cases he
        exact { hs with }
    · by_cases hpow : ∃ c, i = .poweron c
      · obtain ⟨c, rfl⟩ := hpow
        exact sound_of_poweron hw h
      · obtain ⟨ds, ks, r, he, hd⟩ := exec_call hc (fun sv e => hset ⟨sv, e⟩) (fun c e => hpow ⟨c, e⟩) s
        cases Host.Outcome.next.inj (h.symm.trans he)
        exact { hs with record := fun v => (hd v).legal (hs.record v) }

/-- Everything a step can do (20_memory.md R85). -/
theorem step_cases {s t : State} (h : step s = .next t) :
    (s.pending = [] ∧ t = s) ∨ ∃ r rest i, s.pending = r :: rest ∧ decode s.session.map s.mapper.kind r = .ok i ∧
      exec i (s.withPending rest) = .next t := by
  unfold step State.fetch at h
  cases hp : s.pending with
  | nil =>
    simp only [hp] at h
    cases h
    exact .inl ⟨rfl, rfl⟩
  | cons r rest =>
    simp only [hp] at h
    split at h
    · cases h
    · next i hd => exact .inr ⟨r, rest, i, rfl, hd, h⟩

end Sys2Proof.Machine
end

section
/-! PROOF. The decoder and the encoder (30_encoding.md R100 to R108): they agree on every operation and on every word,
and the words that spell no operation are the reserved ones. -/

namespace Sys2Proof

open Machine (Saved)

/-! ## Words as numbers -/

theorem toNat_append_eq {m n : Nat} (x : BitVec m) (y : BitVec n) : (x ++ y).toNat = x.toNat * 2 ^ n + y.toNat := by
  rw [BitVec.toNat_append, ← Nat.shiftLeft_add_eq_or_of_lt y.isLt, Nat.shiftLeft_eq]

theorem toNat_field {w : Nat} (x : BitVec w) (start len : Nat) :
    (x.extractLsb' start len).toNat = x.toNat / 2 ^ start % 2 ^ len := by
  rw [BitVec.extractLsb'_toNat, Nat.shiftRight_eq_div_pow]

theorem getLsbD_eq_decide {w : Nat} (x : BitVec w) (i : Nat) : x.getLsbD i = decide (x.toNat / 2 ^ i % 2 = 1) :=
  Nat.testBit_eq_decide_div_mod_eq

/-- The `SZ` bit as a number. -/
def szBit : Size → Nat
  | .byte => 0
  | .word => 1

theorem toNat_busWord (wr : Bool) (sz : Size) (a : Addr) :
    (busWord wr sz a).toNat = wr.toNat * 0x2000000 + szBit sz * 0x1000000 + a.toNat := by
  cases wr <;> cases sz <;> rw [busWord, toNat_append_eq] <;> rfl

theorem toNat_envWord (call : Byte) (arg : BitVec 20) :
    (envWord call arg).toNat = 0x10000000 + call.toNat * 0x100000 + arg.toNat := by
  rw [envWord, toNat_append_eq, toNat_append_eq]
  simp only [BitVec.toNat_ofNat]
  omega

theorem sizeBit_eq_word_iff (w : OpWord) : sizeBit w = .word ↔ w.toNat / 0x1000000 % 2 = 1 := by
  rw [sizeBit, getLsbD_eq_decide]
  exact (ite_eq_left_iff.trans (by simp)).trans decide_eq_true_iff

theorem szBit_sizeBit (w : OpWord) : szBit (sizeBit w) = w.toNat / 0x1000000 % 2 := by
  cases h : sizeBit w with
  | word => exact ((sizeBit_eq_word_iff w).mp h).symm
  | byte =>
    have hne := mt (sizeBit_eq_word_iff w).mpr (by rw [h]; decide)
    exact (Nat.mod_two_ne_one.mp hne).symm

/-! ## Bus transactions -/

/-- The operation of a bus transaction (R104). -/
def busOp (wr : Bool) (t : Target) (sz : Size) (a : Addr) (o : Operands) : Instr :=
  if wr then writeOf t sz a o else readOf t sz a o

/-- A word of class 0 with `ZERO` 00 decodes to the operation of the target its address selects. -/
theorem decode_bus {m : BusMap} {k : MapperKind} {r : Request} {wr : Bool} {sz : Size} {a : Addr}
    (h : r.opw = busWord wr sz a) : decode m k r = .ok (busOp wr (m.select k wr sz a) sz a r.ops) := by
  have hn := toNat_busWord wr sz a
  have ha := a.isLt
  have hsz : szBit sz ≤ 1 := by cases sz <;> decide
  have hwr := wr.toNat_le
  have hcls : (r.opw.extractLsb' 28 4).toNat = 0 := by rw [h, toNat_field, hn]; omega
  have hzero : r.opw.extractLsb' 26 2 = 0#2 := by
    apply BitVec.eq_of_toNat_eq
    rw [h, toNat_field, hn, BitVec.toNat_ofNat]
    omega
  have haddr : r.opw.extractLsb' 0 24 = a := by
    apply BitVec.eq_of_toNat_eq
    rw [h, toNat_field, hn]
    omega
  have hsize : sizeBit r.opw = sz := by
    have hs := szBit_sizeBit r.opw
    rw [h, hn] at hs
    have hs' : szBit (sizeBit (busWord wr sz a)) = szBit sz := by omega
    rw [h]
    revert hs'
    cases sizeBit (busWord wr sz a) <;> cases sz <;> simp [szBit]
  have hdir : r.opw.getLsbD 25 = wr := by
    rw [getLsbD_eq_decide, h, hn]
    cases wr <;> simp only [Bool.toNat_false, Bool.toNat_true, decide_eq_false_iff_not, decide_eq_true_eq] <;> omega
  simp only [decode, hcls, hzero, if_true, decodeBus, hsize, haddr, hdir, busOp]
  cases wr <;> rfl

/-- A word of class 0 with `ZERO` 00 is its own fields. -/
theorem eq_busWord {w : OpWord} (h : w.toNat < 0x4000000) :
    w = busWord (w.getLsbD 25) (sizeBit w) (w.extractLsb' 0 24) := by
  apply BitVec.eq_of_toNat_eq
  have hbit : (w.getLsbD 25).toNat = w.toNat / 0x2000000 := by
    rw [getLsbD_eq_decide]
    by_cases hb : w.toNat / 2 ^ 25 % 2 = 1
    · rw [decide_eq_true hb, Bool.toNat_true]; omega
    · rw [decide_eq_false hb, Bool.toNat_false]; omega
  rw [toNat_busWord, hbit, szBit_sizeBit, toNat_field]
  omega

/-- Only a write selects the page selectors (R104). -/
theorem select_read_ne_psel (m : BusMap) (k : MapperKind) (sz : Size) (a : Addr) : m.select k false sz a ≠ .psel := by
  unfold BusMap.select BusMap.selectIo
  repeat' split
  all_goals simp_all

/-- The operation of a target spells its own transaction, lies where it is selected, and is well formed. -/
theorem busOp_spec (wr : Bool) (t : Target) (sz : Size) (a : Addr) (o : Operands) (hpsel : wr = false → t ≠ .psel) :
    (encode (busOp wr t sz a o)).opw = busWord wr sz a ∧
    (∀ m k, m.select k wr sz a = t → (busOp wr t sz a o).placed m k = true) ∧
    (busOp wr t sz a o).wf = true := by
  have hplaced : ∀ {i : Instr}, (∀ m k, i.placed m k = (m.select k wr sz a == t)) →
      ∀ m k, m.select k wr sz a = t → i.placed m k = true := fun hi m k ht => by rw [hi, ht]; exact beq_self_eq_true t
  cases wr with
  | false =>
    cases t with
    | psel => exact absurd rfl (hpsel rfl)
    | sec => cases sz <;> exact ⟨rfl, hplaced fun _ _ => rfl, rfl⟩
    | ioreg r => cases r <;> exact ⟨rfl, hplaced fun _ _ => rfl, rfl⟩
    | _ => exact ⟨rfl, hplaced fun _ _ => rfl, rfl⟩
  | true =>
    cases t with
    | sec => cases sz <;> exact ⟨rfl, hplaced fun _ _ => rfl, rfl⟩
    | ioreg r => cases r <;> exact ⟨rfl, hplaced fun _ _ => rfl, rfl⟩
    | _ => exact ⟨rfl, hplaced fun _ _ => rfl, rfl⟩

/-! ## Environment calls -/

theorem toNat_class (w : OpWord) : (w.extractLsb' 28 4).toNat = w.toNat / 0x10000000 := by
  have := w.isLt
  rw [toNat_field]
  omega

theorem toNat_call (w : OpWord) : (w.extractLsb' 20 8).toNat = w.toNat / 0x100000 % 0x100 := toNat_field w 20 8

theorem toNat_arg (w : OpWord) : (w.extractLsb' 0 20).toNat = w.toNat % 0x100000 := by
  rw [toNat_field, Nat.pow_zero, Nat.div_one]
  rfl

/-- A field of the argument is a field of the word. -/
theorem argField_eq_zero_iff (w : OpWord) (start len : Nat) :
    ((w.extractLsb' 0 20).extractLsb' start len == 0#len) = true ↔
      w.toNat % 0x100000 / 2 ^ start % 2 ^ len = 0 := by
  rw [beq_iff_eq, ← BitVec.toNat_inj, toNat_field, toNat_arg, BitVec.toNat_ofNat, Nat.zero_mod]

theorem arg_eq_zero_iff (w : OpWord) : (w.extractLsb' 0 20 == 0#20) = true ↔ w.toNat % 0x100000 = 0 := by
  rw [beq_iff_eq, ← BitVec.toNat_inj, toNat_arg]
  rfl

/-- A word of class 1 is decoded as an environment call. -/
theorem decode_env {m : BusMap} {k : MapperKind} {r : Request} (h : r.opw.toNat / 0x10000000 = 1) :
    decode m k r = decodeEnv r.opw r.ops := by
  simp only [decode, toNat_class, h]

theorem keysOf_length (n : Nat) (keys : List (BitVec 16)) : (keysOf n keys).length = n := by simp [keysOf]

theorem keysOf_self (keys : List (BitVec 16)) : keysOf keys.length keys = keys := by
  apply List.ext_getElem (keysOf_length _ _)
  intro i h _
  rw [keysOf_length] at h
  simp [keysOf, h]

/-- The argument bits a call does not use are zero (R102). -/
def argClear (w : OpWord) : Bool :=
  match (w.extractLsb' 20 8).toNat with
  | 0x02 | 0x03 => (w.extractLsb' 0 20).extractLsb' 12 8 == 0#8
  | 0x04 | 0x05 => (w.extractLsb' 0 20).extractLsb' 16 4 == 0#4
  | 0x06 => (w.extractLsb' 0 20).extractLsb' 12 8 == 0#8 && (w.extractLsb' 0 20).extractLsb' 0 8 == 0#8
  | _ => w.extractLsb' 0 20 == 0#20

/-- The call a word spells, its unused bits aside (R102). -/
def callOp (w : OpWord) (o : Operands) : Instr :=
  match (w.extractLsb' 20 8).toNat with
  | 0x00 => .poweron o.power.canon
  | 0x01 => .scanline
  | 0x02 => .settype (w.extractLsb' 8 4) (w.extractLsb' 0 8)
  | 0x03 => .setkeymap (w.extractLsb' 8 4) (keysOf (w.extractLsb' 0 8).toNat o.keys)
  | 0x04 => .keydown (w.extractLsb' 0 16)
  | 0x05 => .keyup (w.extractLsb' 0 16)
  | 0x06 => .mousemove (w.extractLsb' 8 4) o.dx o.dy
  | 0x07 => .getstate
  | _ => .setstate o.saved.canon

/-- The nine calls. -/
theorem call_cases {n : Nat} (h : n ≤ 8) :
    n = 0 ∨ n = 1 ∨ n = 2 ∨ n = 3 ∨ n = 4 ∨ n = 5 ∨ n = 6 ∨ n = 7 ∨ n = 8 := by omega

/-- The decoder of calls: an unknown call, a stray argument bit, or the call (R102, R108). -/
theorem decodeEnv_eq (w : OpWord) (o : Operands) :
    decodeEnv w o =
      if 8 < (w.extractLsb' 20 8).toNat then .invalid .unknownCall
      else if argClear w then .ok (callOp w o) else .invalid .strayArgument := by
  by_cases h : 8 < (w.extractLsb' 20 8).toNat
  · rw [if_pos h, decodeEnv]
    split <;> first | omega | rfl
  · rw [if_neg h]
    rcases call_cases (Nat.le_of_not_lt h) with hc | hc | hc | hc | hc | hc | hc | hc | hc <;>
      simp only [decodeEnv, argClear, callOp, hc, withUnused]

/-- The call a word spells is well formed, whatever lists the request carries. -/
theorem callOp_wf (w : OpWord) (o : Operands) : (callOp w o).wf = true := by
  unfold callOp
  split
  · exact PowerConfig.wf_canon _
  · rfl
  · rfl
  · exact decide_eq_true (by rw [keysOf_length]; exact (w.extractLsb' 0 8).isLt)
  · rfl
  · rfl
  · rfl
  · rfl
  · exact Saved.wf_canon _

/-- The number of an argument of three fields. -/
theorem toNat_arg3 (v : BitVec 4) (x : Byte) : (0#8 ++ v ++ x).toNat = v.toNat * 0x100 + x.toNat := by
  rw [toNat_append_eq, toNat_append_eq]
  simp

/-- The number of an argument that is a key code. -/
theorem toNat_argCode (code : BitVec 16) : (0#4 ++ code).toNat = code.toNat := by
  rw [toNat_append_eq]
  simp

/-- A call spells its own word. -/
theorem encode_callOp {w : OpWord} (o : Operands) (hcls : w.toNat / 0x10000000 = 1)
    (hcall : (w.extractLsb' 20 8).toNat ≤ 8) (harg : argClear w = true) : (encode (callOp w o)).opw = w := by
  apply BitVec.eq_of_toNat_eq
  have hn : w.toNat = 0x10000000 + (w.extractLsb' 20 8).toNat * 0x100000 + w.toNat % 0x100000 := by
    rw [toNat_call]; omega
  rw [hn]
  rcases call_cases hcall with hc | hc | hc | hc | hc | hc | hc | hc | hc <;>
    simp only [argClear, hc, arg_eq_zero_iff, argField_eq_zero_iff, Bool.and_eq_true] at harg <;>
    simp only [callOp, hc, encode, toNat_envWord, toNat_arg3, toNat_argCode, toNat_field, keysOf_length,
      BitVec.toNat_ofNat] <;>
    omega

/-! ## The obligations -/

/-- What a request decodes to: a bus operation at its target, or a call with no stray bit. -/
theorem decode_ok_cases {m : BusMap} {k : MapperKind} {r : Request} {i : Instr} (h : decode m k r = .ok i) :
    (∃ wr sz a, r.opw = busWord wr sz a ∧ i = busOp wr (m.select k wr sz a) sz a r.ops) ∨
    (r.opw.toNat / 0x10000000 = 1 ∧ (r.opw.extractLsb' 20 8).toNat ≤ 8 ∧ argClear r.opw = true ∧
      i = callOp r.opw r.ops) := by
  have h0 := h
  unfold decode at h0
  split at h0
  · next hcls =>
    split at h0
    · next hz =>
      have hz' := congrArg BitVec.toNat hz
      rw [toNat_class] at hcls
      rw [toNat_field, BitVec.toNat_ofNat] at hz'
      have he := eq_busWord (w := r.opw) (by omega)
      exact .inl ⟨_, _, _, he, Decoded.ok.inj (h.symm.trans (decode_bus he))⟩
    · cases h0
  · next hcls =>
    rw [toNat_class] at hcls
    rw [decodeEnv_eq] at h0
    split at h0
    · cases h0
    · next hcall =>
      split at h0
      · next harg => exact .inr ⟨hcls, Nat.le_of_not_lt hcall, harg, (Decoded.ok.inj h0).symm⟩
      · cases h0
  · cases h0

/-- Every decoded operation is well formed (log entry 6). -/
theorem wf_of_decode {m : BusMap} {k : MapperKind} {r : Request} {i : Instr} (h : decode m k r = .ok i) :
    i.wf = true := by
  rcases decode_ok_cases h with ⟨wr, sz, a, _, rfl⟩ | ⟨_, _, _, rfl⟩
  · exact (busOp_spec wr _ sz a r.ops fun hw => hw ▸ select_read_ne_psel m k sz a).2.2
  · exact callOp_wf _ _

/-- Settles O2: a bus word is its own fields, of which the target's operation is spelled; a call's word is its class, its
number and an argument whose other bits are zero. -/
theorem encodeOfDecodeIsTheWord : Obligations.EncodeOfDecodeIsTheWord := by
  intro m k r i h
  refine ⟨?_, ?_, wf_of_decode h⟩ <;> rcases decode_ok_cases h with ⟨wr, sz, a, he, rfl⟩ | ⟨hcls, hcall, harg, rfl⟩
  · exact (busOp_spec wr _ sz a r.ops fun hw => hw ▸ select_read_ne_psel m k sz a).1.trans he.symm
  · exact encode_callOp r.ops hcls hcall harg
  · exact (busOp_spec wr _ sz a r.ops fun hw => hw ▸ select_read_ne_psel m k sz a).2.1 m k rfl
  · unfold callOp
    split <;> rfl

/-- A call decodes to itself when its argument has no stray bit and its operands come back. -/
theorem decode_call {m : BusMap} {k : MapperKind} {call : Byte} {arg : BitVec 20} {o : Operands} {i : Instr}
    (hcall : call.toNat ≤ 8) (harg : argClear (envWord call arg) = true) (hop : callOp (envWord call arg) o = i) :
    decode m k ⟨envWord call arg, o⟩ = .ok i := by
  have hx := arg.isLt
  have hn := toNat_envWord call arg
  have hc : ((envWord call arg).extractLsb' 20 8).toNat = call.toNat := by rw [toNat_call, hn]; omega
  rw [decode_env (by simp only [hn]; omega), decodeEnv_eq, if_neg (by simp only [hc]; omega), if_pos harg, hop]

/-- A bus operation at an address that selects its own target decodes to itself. -/
theorem decode_placed {m : BusMap} {k : MapperKind} {i : Instr} {wr : Bool} {t : Target} {sz : Size} {a : Addr}
    (hw : (encode i).opw = busWord wr sz a) (hp : (m.select k wr sz a == t) = true)
    (hop : busOp wr t sz a (encode i).ops = i) : decode m k (encode i) = .ok i := by
  rw [decode_bus hw, eq_of_beq hp, hop]

/-- Bits 11:8 and 7:0 of the word of a call with a port and a byte. -/
theorem fields_arg3 (call : Byte) (v : BitVec 4) (x : Byte) :
    (envWord call (0#8 ++ v ++ x)).extractLsb' 8 4 = v ∧ (envWord call (0#8 ++ v ++ x)).extractLsb' 0 8 = x := by
  constructor <;> apply BitVec.eq_of_toNat_eq <;> rw [toNat_field, toNat_envWord, toNat_arg3] <;> omega

/-- Bits 15:0 of the word of a call with a key code. -/
theorem field_argCode (call : Byte) (code : BitVec 16) :
    (envWord call (0#4 ++ code)).extractLsb' 0 16 = code := by
  apply BitVec.eq_of_toNat_eq
  rw [toNat_field, toNat_envWord, toNat_argCode]
  omega

theorem call_envWord (call : Byte) (arg : BitVec 20) : (envWord call arg).extractLsb' 20 8 = call := by
  apply BitVec.eq_of_toNat_eq
  rw [toNat_call, toNat_envWord]
  omega

theorem arg_envWord (call : Byte) (arg : BitVec 20) : (envWord call arg).extractLsb' 0 20 = arg := by
  apply BitVec.eq_of_toNat_eq
  rw [toNat_arg, toNat_envWord]
  omega

theorem argField_arg3 (v : BitVec 4) (x : Byte) : (0#8 ++ v ++ x).extractLsb' 12 8 = 0#8 := by
  apply BitVec.eq_of_toNat_eq
  rw [toNat_field, toNat_arg3, BitVec.toNat_ofNat]
  omega

theorem argField_argCode (code : BitVec 16) : (0#4 ++ code).extractLsb' 16 4 = 0#4 := by
  apply BitVec.eq_of_toNat_eq
  rw [toNat_field, toNat_argCode, BitVec.toNat_ofNat]
  omega

/-- Settles O1: a bus operation decodes to the operation of the target its address selects, which is its own, and a call
to the operands its fields carry, which its well-formedness leaves as they are. -/
theorem decodeOfEncodeIsTheInstruction : Obligations.DecodeOfEncodeIsTheInstruction := by
  intro m k i hwf hp
  cases i with
  | poweron c =>
    exact decode_call (by decide) (by decide) (congrArg Instr.poweron (PowerConfig.canon_of_wf hwf))
  | setstate sv =>
    exact decode_call (by decide) (by decide) (congrArg Instr.setstate (Saved.canon_of_wf hwf))
  | scanline | getstate => exact decode_call (by decide) (by decide) rfl
  | settype v x =>
    refine decode_call (by decide) ?_ ?_
    · simp [argClear, call_envWord, arg_envWord, argField_arg3]
    · simp [callOp, call_envWord, fields_arg3]
  | setkeymap v keys =>
    have hlen : keys.length < 256 := of_decide_eq_true hwf
    refine decode_call (by decide) ?_ ?_
    · simp [argClear, call_envWord, arg_envWord, argField_arg3]
    · simp [callOp, call_envWord, fields_arg3, Nat.mod_eq_of_lt hlen, keysOf_self]
  | keydown code | keyup code =>
    refine decode_call (by decide) ?_ ?_
    · simp [argClear, call_envWord, arg_envWord, argField_argCode]
    · simp [callOp, call_envWord, field_argCode]
  | mousemove v dx dy =>
    refine decode_call (by decide) ?_ ?_
    · have h0 : (0#8 ++ v ++ 0#8).extractLsb' 0 8 = 0#8 := by
        apply BitVec.eq_of_toNat_eq
        rw [toNat_field, toNat_arg3]
        omega
      simp [argClear, call_envWord, arg_envWord, argField_arg3, h0]
    · simp [callOp, call_envWord, fields_arg3]
  | secRdb a =>
    have hw : (encode (.secRdb a)).opw = busWord false .byte a := rfl
    exact decode_placed hw hp rfl
  | secRdw a =>
    have hw : (encode (.secRdw a)).opw = busWord false .word a := rfl
    exact decode_placed hw hp rfl
  | secWrb a d =>
    have hw : (encode (.secWrb a d)).opw = busWord true .byte a := rfl
    exact decode_placed hw hp rfl
  | secWrw a d =>
    have hw : (encode (.secWrw a d)).opw = busWord true .word a := rfl
    exact decode_placed hw hp rfl
  | _ => exact decode_placed rfl hp rfl

end Sys2Proof
end

section
/-! PROOF. The step (20_memory.md R85): it performs the oldest waiting operation, and keeps every state legal. -/

namespace Sys2Proof.Machine

/-- Settles O6: the three cases are the branches of `step` on the queue and on what its head decodes to. -/
theorem stepPerformsTheOldestWaitingOperation : Obligations.StepPerformsTheOldestWaitingOperation := by
  intro s r rest
  refine ⟨fun hp => ?_, fun i hp hd => ?_, fun e hp hd => ?_⟩
  · simp only [step, State.fetch, hp]
  · simp only [step, State.fetch, hp, hd]
  · simp only [step, State.fetch, hp, hd]

/-- Settles O7: every item of the reset state is a literal. -/
theorem resetStateIsLegal : Obligations.ResetStateIsLegal := by
  unfold Obligations.ResetStateIsLegal
  decide

/-- Settles O8: what the step performs was decoded, so its operands are well formed, and every operation with well-formed
operands keeps the invariants. -/
theorem stepKeepsTheStateLegal : Obligations.StepKeepsTheStateLegal := by
  intro s t hs h
  rw [State.legal_iff] at hs ⊢
  rcases step_cases h with ⟨_, rfl⟩ | ⟨r, rest, i, _, hd, he⟩
  · exact hs
  · have hs' : (s.withPending rest).Sound := { hs with }
    exact sound_of_exec (wf_of_decode hd) hs' he

end Sys2Proof.Machine
end

section
/-! PROOF. Rules of the whole machine: each is read off what bus reads, bus writes and calls can do. -/

namespace Sys2Proof.Machine

/-! ## Everything completes -/

/-- A call completes, a POWERON if its session is one R360 takes (60_exceptions.md R330). -/
theorem exec_call_completes {i : Instr} (h : i.isCall = true) (s : State)
    (hp : ∀ c, i = .poweron c → (c.kind = .quirk → c.quirk ≠ none) ∧ ∀ v : Fin 15, c.types[v] = .tap → v.val ≤ 2) :
    ∃ t, exec i s = .next t := by
  by_cases hset : ∃ sv, i = .setstate sv
  · obtain ⟨sv, rfl⟩ := hset
    exact ⟨_, (apply_ite Host.Outcome.next _ _ _).symm⟩
  · by_cases hpow : ∃ c, i = .poweron c
    · obtain ⟨c, rfl⟩ := hpow
      obtain ⟨hq, ht⟩ := hp c rfl
      have hm : ∃ m, PowerConfig.mapper c = some m := by
        unfold PowerConfig.mapper
        split
        · exact ⟨_, rfl⟩
        · exact ⟨_, rfl⟩
        · exact ⟨_, rfl⟩
        · next hk =>
          obtain ⟨q, hq'⟩ := Option.ne_none_iff_exists'.mp (hq hk)
          exact ⟨_, by rw [hq']; rfl⟩
      obtain ⟨m, hm⟩ := hm
      have he : exec (.poweron c) s = execPoweron c s := rfl
      simp only [execPoweron, hm, if_pos fun v => (typeAllowed_iff v _).mpr (ht v)] at he
      exact ⟨_, he⟩
    · obtain ⟨ds, ks, r, he, _⟩ := exec_call h (fun sv e => hset ⟨sv, e⟩) (fun c e => hpow ⟨c, e⟩) s
      exact ⟨_, he⟩

/-- No operation faults: there is no fault (R330). -/
theorem exec_ne_fault (i : Instr) (s : State) (f : Fault) : exec i s ≠ .fault f := nomatch f

/-- Settles O10: a read hands out a value of its width, a write no result, and a call always returns. -/
theorem everyOperationCompletes : Obligations.EveryOperationCompletes := by
  intro i s
  refine ⟨fun hc => ?_, fun hc hp => exec_call_completes hc s hp, exec_ne_fault i s⟩
  cases hr : i.isRead with
  | true =>
    obtain ⟨r, sz, hsz, hhas, he | ⟨_, he⟩⟩ := exec_read hr s <;>
      exact ⟨_, he, fun _ => ⟨sz, hsz, hhas⟩, fun h => absurd h Bool.noConfusion⟩
  | false =>
    obtain ⟨u, _, he⟩ := exec_write hc hr s
    exact ⟨_, he, fun h => absurd h Bool.noConfusion, fun _ => rfl⟩

/-! ## Reads -/

/-- Settles O59: a read only hands out its result, and one that is forwarded uses up one draw. -/
theorem readsChangeNoState : Obligations.ReadsChangeNoState := by
  intro i s t hr h
  obtain ⟨r, _, _, _, he | ⟨hf, he⟩⟩ := exec_read hr s <;> cases Host.Outcome.next.inj (h.symm.trans he)
  · exact ⟨rfl, fun _ _ _ => rfl, Nat.le_succ _⟩
  · refine ⟨rfl, fun hb hw hv => ?_, Nat.le_refl _⟩
    rcases hf with ⟨a, e⟩ | ⟨a, e⟩ | ⟨sz, a, e⟩
    · exact absurd e (hb a)
    · exact absurd e (hw a)
    · exact absurd e (hv sz a)

/-! ## What a bus transaction leaves as it was -/

/-- What no byte lane of any write changes. -/
theorem LaneWrite.config {i : Instr} {s t : State} (h : LaneWrite i s t) :
    (t.session, t.mapper.kind, t.keyMap, t.ramDraw) = (s.session, s.mapper.kind, s.keyMap, s.ramDraw) := by
  cases h with
  | store c st => cases st <;> rfl
  | hook q _ hm => simp only [State.withMapper, hm, Mapper.kind]
  | request clk want => rw [requestRelease_frame]
  | reset on => rw [resetLine_frame]
  | _ => rfl

/-- No byte lane changes a record's type or buttons. -/
theorem LaneWrite.record {i : Instr} {s t : State} (h : LaneWrite i s t) (v : Fin 15) :
    ((t.dev v).type, (t.dev v).buttons) = ((s.dev v).type, (s.dev v).buttons) := by
  cases h with
  | store c st => cases st <;> rfl
  | port p x =>
    obtain ⟨ht, hb, _⟩ := devLines_frame p x.lines s.devices v
    rw [portUpdate_eq]
    refine Prod.ext (Eq.trans ?_ ht) (Eq.trans ?_ hb) <;> simp [State.dev, State.setPort, State.port]
  | serialTx p b =>
    rw [writeSerTx, State.dev_setDev]
    split
    · next e => rw [e]
    · rfl
  | serialCtrl p b =>
    rw [writeSerCtrl, State.dev_setDev]
    split
    · next e => rw [e]
    · rfl
  | request clk want => rw [requestRelease_frame]; rfl
  | reset on => rw [resetLine_frame]; rfl
  | _ => rfl

/-- Only the arbiter's two write registers reach its lines (42_bus_arbiter.md R207). -/
theorem LaneWrite.arb {i : Instr} (hq : ∀ sz a d clk, i ≠ .busreqWr sz a d clk) (hr : ∀ sz a d, i ≠ .sresetWr sz a d)
    {s t : State} (h : LaneWrite i s t) : t.arb = s.arb := by
  cases h with
  | store c st => cases st <;> rfl
  | request clk _ hi => obtain ⟨sz, a, d, e⟩ := hi; exact absurd e (hq sz a d clk)
  | reset _ hi => obtain ⟨sz, a, d, e⟩ := hi; exact absurd e (hr sz a d)
  | _ => rfl

/-- Only the arbiter's write registers and the forwarded writes make an event (00_scope.md R14). -/
theorem LaneWrite.events {i : Instr} (hq : ∀ sz a d clk, i ≠ .busreqWr sz a d clk) (hr : ∀ sz a d, i ≠ .sresetWr sz a d)
    (hb : ∀ a d, i ≠ .secWrb a d) (hw : ∀ a d, i ≠ .secWrw a d) (hv : ∀ sz a d, i ≠ .vidWr sz a d)
    {s t : State} (h : LaneWrite i s t) : t.events = s.events := by
  cases h with
  | store c st => cases st <;> rfl
  | request clk _ hi => obtain ⟨sz, a, d, e⟩ := hi; exact absurd e (hq sz a d clk)
  | reset _ hi => obtain ⟨sz, a, d, e⟩ := hi; exact absurd e (hr sz a d)
  | forward _ hi =>
    rcases hi with ⟨a, d, e⟩ | ⟨a, d, e⟩ | ⟨sz, a, d, e⟩
    · exact absurd e (hb a d)
    · exact absurd e (hw a d)
    · exact absurd e (hv sz a d)
  | _ => rfl

/-- Only the port register writes reach the records and the ports (44_io_devices.md R295). -/
theorem LaneWrite.devices {i : Instr}
    (hi : ∀ (p : Fin 3) sz a d, i ≠ dataWr p sz a d ∧ i ≠ ctrlWr p sz a d ∧ i ≠ txWr p sz a d ∧ i ≠ sctrlWr p sz a d)
    {s t : State} (h : LaneWrite i s t) : (t.devices, t.ports) = (s.devices, s.ports) := by
  cases h with
  | store c st => cases st <;> rfl
  | port p x hp =>
    obtain ⟨sz, a, d, e | e⟩ := hp
    · exact absurd e (hi p sz a d).1
    · exact absurd e (hi p sz a d).2.1
  | serialTx p v hp => obtain ⟨sz, a, d, e⟩ := hp; exact absurd e (hi p sz a d).2.2.1
  | serialCtrl p v hp => obtain ⟨sz, a, d, e⟩ := hp; exact absurd e (hi p sz a d).2.2.2
  | request clk want => rw [requestRelease_frame]
  | reset on => rw [resetLine_frame]
  | _ => rfl

/-- What every byte lane of its writes leaves, and the result and the draws do not touch, a bus transaction leaves. -/
theorem bus_frame {α : Type} {f : State → α} {i : Instr} (hc : i.isCall = false)
    (hres : ∀ s r n, f { s with result := r, draws := n } = f s) (hlane : ∀ s t, LaneWrite i s t → f t = f s)
    {s t : State} (h : exec i s = .next t) : f t = f s := by
  cases hr : i.isRead with
  | true =>
    obtain ⟨r, _, _, _, he | ⟨_, he⟩⟩ := exec_read hr s <;> cases Host.Outcome.next.inj (h.symm.trans he)
    · exact hres s r s.draws
    · exact hres s r (s.draws + 1)
  | false =>
    obtain ⟨u, hu, he⟩ := exec_write hc hr s
    cases Host.Outcome.next.inj (h.symm.trans he)
    exact (hres u .none u.draws).trans (LaneWrite.frame hlane hu)

/-- Settles O60: the only byte lanes that reach a record or a port are those of the port registers. -/
theorem onlyPortWritesAndDeviceCallsReachTheDevices : Obligations.OnlyPortWritesAndDeviceCallsReachTheDevices := by
  intro i s t hc h hi
  exact Prod.mk.inj (bus_frame (f := fun u => (u.devices, u.ports)) hc (fun _ _ _ => rfl)
    (fun _ _ hl => hl.devices hi) h)

/-! ## What a call leaves as it was -/

/-- No call but SETSTATE and POWERON changes a record's serial registers or levels. -/
theorem DeviceCall.frame {v : Fin 15} {d e : Device} (h : DeviceCall v d e) :
    e.serCtrl = d.serCtrl ∧ e.serLastTx = d.serLastTx ∧ e.lastLines = d.lastLines := by
  cases h with
  | tick =>
    unfold Machine.tick
    split
    · split <;> exact ⟨rfl, rfl, rfl⟩
    · exact ⟨rfl, rfl, rfl⟩
  | _ => exact ⟨rfl, rfl, rfl⟩

/-- Settles O58: the bus half is the frame of every byte lane, the other half that of every call. -/
theorem eachAgentChangesOnlyItsOwnSide : Obligations.EachAgentChangesOnlyItsOwnSide := by
  intro i s t h
  refine ⟨fun hc => ?_, fun hc hs hp => ?_⟩
  · have hconf := bus_frame (f := fun u => (u.session, u.mapper.kind, u.keyMap, u.ramDraw)) hc (fun _ _ _ => rfl)
      (fun _ _ hl => hl.config) h
    obtain ⟨h1, h2, h3, h4⟩ : _ ∧ _ ∧ _ ∧ _ := by simpa only [Prod.mk.injEq] using hconf
    exact ⟨h1, h2, h3, h4, fun v => Prod.mk.inj (bus_frame (f := fun u => ((u.dev v).type, (u.dev v).buttons)) hc
      (fun _ _ _ => rfl) (fun _ _ hl => hl.record v) h)⟩
  · obtain ⟨ds, ks, r, he, hd⟩ := exec_call hc hs hp s
    cases Host.Outcome.next.inj (h.symm.trans he)
    exact ⟨rfl, fun v => (hd v).frame⟩

/-- SETSTATE makes no event (45_host_ops.md R321). -/
theorem events_of_setstate {sv : Saved} {s t : State} (h : exec (.setstate sv) s = .next t) : t.events = s.events := by
  have he : execSetstate sv s = .next t := h
  unfold execSetstate at he
  split at he <;> cases he <;> rfl

/-- POWERON keeps the events so far (log entry 18). -/
theorem events_of_poweron {c : PowerConfig} {s t : State} (h : exec (.poweron c) s = .next t) :
    t.events = s.events := by
  have he : execPoweron c s = .next t := h
  unfold execPoweron at he
  split at he
  · cases he
  · split at he <;> cases he
    rfl

/-- Settles O30: of the byte lanes only those of the two registers reach the lines, and no call emits an event. -/
theorem onlyArbiterWritesMoveTheLines : Obligations.OnlyArbiterWritesMoveTheLines := by
  intro i s t h hq hr
  cases hc : i.isCall with
  | false =>
    exact ⟨fun _ _ => bus_frame (f := State.arb) hc (fun _ _ _ => rfl) (fun _ _ hl => hl.arb hq hr) h,
      fun hb hw hv => bus_frame (f := State.events) hc (fun _ _ _ => rfl) (fun _ _ hl => hl.events hq hr hb hw hv) h⟩
  | true =>
    have hcall : (∀ sv, i ≠ .setstate sv) → (∀ c, i ≠ .poweron c) → t.arb = s.arb ∧ t.events = s.events := by
      intro hs hp
      obtain ⟨ds, ks, r, he, _⟩ := exec_call hc hs hp s
      cases Host.Outcome.next.inj (h.symm.trans he)
      exact ⟨rfl, rfl⟩
    refine ⟨fun hs hp => (hcall hs hp).1, fun _ _ _ => ?_⟩
    by_cases hset : ∃ sv, i = .setstate sv
    · obtain ⟨sv, rfl⟩ := hset
      exact events_of_setstate h
    · by_cases hpow : ∃ c, i = .poweron c
      · obtain ⟨c, rfl⟩ := hpow
        exact events_of_poweron h
      · exact (hcall (fun sv e => hset ⟨sv, e⟩) (fun c e => hpow ⟨c, e⟩)).2

/-! ## Restoring a savestate -/

/-- What of the session a savestate value replaces (R321). -/
def restoreSession (c : Session) (sv : Saved) : Session :=
  { c with
    map := { c.map with bankTag := sv.bankTag }
    fcBase := sv.fcBase, fc := sv.fc, sramEn := sv.sramEn, eepEn := sv.eepEn }

theorem load_session (s : State) (sv : Saved) : (s.load sv).session = restoreSession s.session sv := rfl

/-- Whatever was restored in between, a later restore decides. -/
theorem restoreSession_restoreSession (c : Session) (sv sv' : Saved) :
    restoreSession (restoreSession c sv) sv' = restoreSession c sv' := rfl

/-- No operation but POWERON changes what a restore leaves of the session. -/
theorem restoreSession_of_exec {i : Instr} {s t : State} (hp : ∀ c, i ≠ .poweron c) (h : exec i s = .next t)
    (sv : Saved) : restoreSession t.session sv = restoreSession s.session sv := by
  cases hc : i.isCall with
  | false => rw [((eachAgentChangesOnlyItsOwnSide i s t h).1 hc).1]
  | true =>
    by_cases hset : ∃ sv', i = .setstate sv'
    · obtain ⟨sv', rfl⟩ := hset
      have he : execSetstate sv' s = .next t := h
      unfold execSetstate at he
      split at he <;> cases he
      · exact restoreSession_restoreSession s.session sv' sv
      · rfl
    · obtain ⟨ds, ks, r, he, _⟩ := exec_call hc (fun sv' e => hset ⟨sv', e⟩) hp s
      cases Host.Outcome.next.inj (h.symm.trans he)
      rfl

theorem restoreSession_of_performAll {is : List Instr} {s t : State} (hp : ∀ i ∈ is, ∀ c, i ≠ .poweron c)
    (h : performAll is s = .next t) (sv : Saved) : restoreSession t.session sv = restoreSession s.session sv := by
  induction is generalizing s with
  | nil => cases h; rfl
  | cons i is ih =>
    unfold performAll at h
    split at h
    · next u hu =>
      exact (ih (fun j hj => hp j (List.mem_cons_of_mem i hj)) h).trans
        (restoreSession_of_exec (hp i List.mem_cons_self) hu sv)
    · cases h
    · cases h

/-- Settles O55: restoring leaves of the later session what no operation but POWERON changes, so that the saved stores fit
its windows and come back as they are. -/
theorem restoringASavestateUndoesWhatFollowed : Obligations.RestoringASavestateUndoesWhatFollowed := by
  intro s t is hs hp h
  have hses : restoreSession t.session s.save = s.session := restoreSession_of_performAll hp h s.save
  simp only [State.legal, Bool.and_eq_true] at hs
  obtain ⟨⟨hl, _⟩, hw⟩ := hs
  have hsl : s.session.sramLen = (restoreSession t.session s.save).sramLen := by rw [hses]
  have hel : s.session.eepLen = (restoreSession t.session s.save).eepLen := by rw [hses]
  obtain ⟨h1, h2, h3⟩ := t.load_of_sameLen s.save hw hsl hel
  have hload : t.load s.save = { s with
      result := t.result, events := t.events, pending := t.pending, draws := t.draws } := by
    have hcopy : t.load s.save = { s with
        session := (t.load s.save).session, sram := (t.load s.save).sram, eep := (t.load s.save).eep,
        result := t.result, events := t.events, pending := t.pending, draws := (t.load s.save).draws } := rfl
    rw [hcopy, h1, h2, h3, load_session, hses]
    rfl
  have he : exec (.setstate s.save) t = execSetstate s.save t := rfl
  rw [he, execSetstate, if_pos hl, hload]
  rfl

end Sys2Proof.Machine
end

section
/-! PROOF. The words that spell no operation (30_encoding.md R108), and the words the spec's programs print. -/

namespace Sys2Proof

/-- When and why a word is rejected (R108). -/
theorem decode_eq_invalid_iff (m : BusMap) (k : MapperKind) (r : Request) (e : DecodeError) :
    decode m k r = .invalid e ↔
      (e = .reservedClass ∧ 2 ≤ r.opw.toNat / 0x10000000) ∨
      (e = .zeroBits ∧ r.opw.toNat / 0x10000000 = 0 ∧ r.opw.toNat / 0x4000000 ≠ 0) ∨
      (e = .unknownCall ∧ r.opw.toNat / 0x10000000 = 1 ∧ 8 < (r.opw.extractLsb' 20 8).toNat) ∨
      (e = .strayArgument ∧ r.opw.toNat / 0x10000000 = 1 ∧ (r.opw.extractLsb' 20 8).toNat ≤ 8 ∧
        ¬ argClear r.opw = true) := by
  have hcls := toNat_class r.opw
  have hinj : ∀ e', (Decoded.invalid e' = .invalid e) = (e = e') := fun e' => by
    rw [Decoded.invalid.injEq, @eq_comm _ e']
  by_cases h0 : r.opw.toNat / 0x10000000 = 0
  · by_cases hz : r.opw.toNat < 0x4000000
    · rw [decode_bus (eq_busWord hz)]
      simp [h0, Nat.div_eq_of_lt hz]
    · have hz' : r.opw.extractLsb' 26 2 ≠ 0#2 := fun hx => by
        have := congrArg BitVec.toNat hx
        rw [toNat_field, BitVec.toNat_ofNat] at this
        omega
      have hn : r.opw.toNat / 0x4000000 ≠ 0 := by omega
      simp [decode, hcls, h0, hz', hinj, hn]
  · by_cases h1 : r.opw.toNat / 0x10000000 = 1
    · rw [decode_env h1, decodeEnv_eq]
      generalize (r.opw.extractLsb' 20 8).toNat = call
      by_cases hcall : 8 < call
      · simp [h1, hcall, hinj, Nat.not_le.mpr hcall]
      · cases harg : argClear r.opw <;> simp [h1, hcall, hinj, Nat.le_of_not_lt hcall]
    · have h2 : 2 ≤ r.opw.toNat / 0x10000000 := by omega
      have hd : decode m k r = .invalid .reservedClass := by
        unfold decode
        split
        · omega
        · omega
        · rfl
      simp [hd, h0, h1, h2, hinj]

/-- Settles O4: each of the four reasons is a range of words, the last with the argument bits of its call. -/
theorem decodeRejectsExactlyTheReservedWords : Obligations.DecodeRejectsExactlyTheReservedWords := by
  intro m k r
  simp only [decode_eq_invalid_iff, toNat_call, reduceCtorEq, false_and, true_and, false_or, or_false]
  refine ⟨by omega, by omega, by omega, ?_⟩
  by_cases hcall : r.opw.toNat / 0x100000 % 0x100 ≤ 8
  · rcases call_cases hcall with hc | hc | hc | hc | hc | hc | hc | hc | hc <;>
      simp only [argClear, toNat_call, hc, arg_eq_zero_iff, argField_eq_zero_iff, Bool.and_eq_true] <;>
      omega
  · constructor
    · rintro ⟨_, h, _⟩
      exact absurd h hcall
    · rintro ⟨h1, h2, _⟩
      omega

/-- Settles O5: each word is a literal, and the decoder runs on it. -/
theorem printedWordsDecodeAsTraced : Obligations.PrintedWordsDecodeAsTraced := by
  unfold Obligations.PrintedWordsDecodeAsTraced
  decide

end Sys2Proof
end

section
/-! PROOF. The decoder agrees with the opcode table under the default map (30_encoding.md R105). Two rows that no word
meets both need no order; the few that can meet are a window inside an I/O or video bank and the bank's own row. -/

namespace Sys2Proof

open Machine (align bankOf offsetOf ioIndex)

/-! ## The addresses of a target under the default map -/

/-- The index of an I/O register (R107). -/
def IoReg.index : IoReg → Nat
  | .version => 0
  | .data1 => 1
  | .data2 => 2
  | .data3 => 3
  | .ctrl1 => 4
  | .ctrl2 => 5
  | .ctrl3 => 6
  | .txdata1 => 7
  | .rxdata1 => 8
  | .sctrl1 => 9
  | .txdata2 => 10
  | .rxdata2 => 11
  | .sctrl2 => 12
  | .txdata3 => 13
  | .rxdata3 => 14
  | .sctrl3 => 15

theorem index_ioReg (i : BitVec 4) : (ioReg i).index = i.toNat := by
  revert i
  decide

/-- How many low address bits do not matter to a target, the video facade aside. -/
def Target.freeBits : Target → Nat
  | .unused | .ram | .vidinv | .vid | .ioinv => 21
  | .rom _ => 23
  | .psel => 4
  | .aux => 8
  | .sec => 16
  | .ioreg _ | .busreq | .sreset => 1

/-- The address bits that matter to a target. -/
def Target.addrMask : Target → Addr
  | .vid => 0xE700E0#24
  | t => BitVec.allOnes 24 <<< t.freeBits

/-- What they hold. -/
def Target.addrPattern : Target → Addr
  | .unused => 0x800000#24
  | .ram => 0xE00000#24
  | .rom _ => 0x000000#24
  | .vid | .vidinv => 0xC00000#24
  | .psel => 0xA130F0#24
  | .aux => 0xA13000#24
  | .sec | .ioinv => 0xA00000#24
  | .ioreg r => BitVec.ofNat 24 (0xA10000 + 2 * r.index)
  | .busreq => 0xA11100#24
  | .sreset => 0xA11200#24

/-- The address has the target's bits. -/
def Target.meets (t : Target) (a : Addr) : Prop := a &&& t.addrMask = t.addrPattern

theorem and_allOnes_shiftLeft_eq_iff {w : Nat} (a p : BitVec w) {n : Nat} (hp : p.toNat % 2 ^ n = 0) :
    a &&& BitVec.allOnes w <<< n = p ↔ a.toNat / 2 ^ n = p.toNat / 2 ^ n := by
  have ha : (a >>> n <<< n).toNat = a.toNat / 2 ^ n * 2 ^ n := by
    have := Nat.div_mul_le_self a.toNat (2 ^ n)
    rw [BitVec.toNat_shiftLeft, BitVec.toNat_ushiftRight, Nat.shiftLeft_eq, Nat.shiftRight_eq_div_pow,
      Nat.mod_eq_of_lt (Nat.lt_of_le_of_lt this a.isLt)]
  have hp' : p.toNat = p.toNat / 2 ^ n * 2 ^ n := (Nat.div_mul_cancel (Nat.dvd_of_mod_eq_zero hp)).symm
  rw [← BitVec.shiftLeft_ushiftRight, ← BitVec.toNat_inj, ha]
  constructor
  · intro h
    rw [← h, Nat.mul_div_cancel _ (Nat.two_pow_pos n)]
  · intro h
    rw [h, ← hp']

/-- The target's bits as a number. -/
theorem Target.meets_iff {t : Target} (ht : t ≠ .vid) (a : Addr) :
    t.meets a ↔ a.toNat / 2 ^ t.freeBits = t.addrPattern.toNat / 2 ^ t.freeBits := by
  have hm : t.addrMask = BitVec.allOnes 24 <<< t.freeBits := by
    cases t with
    | vid => exact absurd rfl ht
    | _ => rfl
  have hp : t.addrPattern.toNat % 2 ^ t.freeBits = 0 := by
    cases t with
    | ioreg r => cases r <;> rfl
    | _ => rfl
  rw [Target.meets, hm]
  exact and_allOnes_shiftLeft_eq_iff a _ hp

/-- Bit 0 of a word access does not matter to a target (20_memory.md R75). -/
theorem Target.meets_align (t : Target) (sz : Size) (a : Addr) : t.meets (align sz a) ↔ t.meets a := by
  cases sz with
  | byte => rfl
  | word =>
    have hm : 0xFFFFFE#24 &&& t.addrMask = t.addrMask := by
      cases t with
      | rom _ => exact (by decide : 0xFFFFFE#24 &&& BitVec.allOnes 24 <<< 23 = BitVec.allOnes 24 <<< 23)
      | ioreg _ => exact (by decide : 0xFFFFFE#24 &&& BitVec.allOnes 24 <<< 1 = BitVec.allOnes 24 <<< 1)
      | _ => decide
    rw [Target.meets, Target.meets, align, BitVec.and_assoc, hm]

/-! ## What the default map selects -/

/-- The tags of the default banks (20_memory.md R81). -/
theorem default_bankTag (c : Fin 8) :
    (c.val < 4 ∧ ∃ r, BusMap.default.bankTag[c] = .rom r) ∨
    (c.val = 4 ∧ BusMap.default.bankTag[c] = .unused) ∨
    (c.val = 5 ∧ BusMap.default.bankTag[c] = .io) ∨
    (c.val = 6 ∧ BusMap.default.bankTag[c] = .video) ∨
    (c.val = 7 ∧ BusMap.default.bankTag[c] = .ram) := by
  fin_cases c
  · exact .inl ⟨by decide, 0, rfl⟩
  · exact .inl ⟨by decide, 1, rfl⟩
  · exact .inl ⟨by decide, 2, rfl⟩
  · exact .inl ⟨by decide, 3, rfl⟩
  · exact .inr (.inl ⟨rfl, rfl⟩)
  · exact .inr (.inr (.inl ⟨rfl, rfl⟩))
  · exact .inr (.inr (.inr (.inl ⟨rfl, rfl⟩)))
  · exact .inr (.inr (.inr (.inr ⟨rfl, rfl⟩)))

/-- The bank of an address as a number. -/
theorem val_bankOf (a : Addr) : (bankOf a).val = a.toNat / 0x200000 := by
  have := a.isLt
  rw [bankOf, BitVec.val_toFin, toNat_field]
  omega

/-- A word transaction selects what its even address selects (R76). -/
theorem select_align (m : BusMap) (k : MapperKind) (wr : Bool) (sz : Size) (a : Addr) :
    m.select k wr sz a = m.select k wr .byte (align sz a) := rfl

/-- The video facade's bits of an offset are those of the address (R104). -/
theorem meets_vid_iff {a : Addr} (h : a.toNat / 0x200000 = 6) :
    Target.vid.meets a ↔ offsetOf a &&& BusMap.default.vmask = 0#21 := by
  have h7 : (0xE700E0#24 : Addr) = 7#3 ++ 0x0700E0#21 := by decide
  have hp : (0xC00000#24 : Addr) = 6#3 ++ 0#21 := by decide
  have ha : a = 6#3 ++ offsetOf a := by
    apply BitVec.eq_of_toNat_eq
    rw [toNat_append_eq, Machine.toNat_offsetOf, BitVec.toNat_ofNat]
    omega
  change a &&& 0xE700E0#24 = 0xC00000#24 ↔ _
  rw [h7, hp]
  conv => lhs; lhs; rw [ha]
  rw [BitVec.and_append]
  constructor
  · intro he
    exact (BitVec.append_right_inj _).mp he
  · intro he
    exact congrArg (6#3 ++ ·) he

/-- Where two targets can meet in one address, the target that stands before (R105). -/
def Target.rivals : Target → List Target
  | .vidinv => [.vid]
  | .aux => [.psel]
  | .ioinv => [.psel, .aux, .sec, .ioreg .version, .ioreg .data1, .ioreg .data2, .ioreg .data3, .ioreg .ctrl1,
      .ioreg .ctrl2, .ioreg .ctrl3, .ioreg .txdata1, .ioreg .rxdata1, .ioreg .sctrl1, .ioreg .txdata2,
      .ioreg .rxdata2, .ioreg .sctrl2, .ioreg .txdata3, .ioreg .rxdata3, .ioreg .sctrl3, .busreq, .sreset]
  | _ => []

/-- What the decoder's answer says of the address: it has the target's bits, and not those of a target that stands
before. (The selectors stand before only for a write under BANKED.) -/
structure Selected (k : MapperKind) (wr : Bool) (t : Target) (a : Addr) : Prop where
  meets : t.meets a
  psel : t = .psel → wr = true ∧ k = .banked
  rivals : ∀ t' ∈ t.rivals, t'.meets a → t' = .psel ∧ ¬ (wr = true ∧ k = .banked)

theorem selected_of_no_rivals {k : MapperKind} {wr : Bool} {t : Target} {a : Addr} (hm : t.meets a)
    (hp : t = .psel → wr = true ∧ k = .banked) (hr : t.rivals = []) : Selected k wr t a :=
  ⟨hm, hp, fun t' ht' => by rw [hr] at ht'; cases ht'⟩

/-- The lines of the arbiter's registers are matched at their word (R104). -/
theorem and_word_eq_iff (off p : BitVec 21) (hp : p.toNat % 2 = 0) :
    off &&& 0x1FFFFE#21 = p ↔ off.toNat / 2 = p.toNat / 2 :=
  and_allOnes_shiftLeft_eq_iff (n := 1) off p hp

/-- The second stage of the default I/O bank (R104). -/
theorem selected_selectIo (k : MapperKind) (wr : Bool) {a : Addr} (h : a.toNat / 0x200000 = 5) :
    Selected k wr (BusMap.default.selectIo k wr (offsetOf a)) a := by
  have ho : (offsetOf a).toNat = a.toNat % 0x200000 := Machine.toNat_offsetOf a
  have hrow : (offsetOf a).extractLsb' 4 4 = 0xF#4 ↔ a.toNat / 16 % 16 = 15 := by
    rw [← BitVec.toNat_inj, toNat_field, ho, BitVec.toNat_ofNat]
    omega
  have hreg : ((offsetOf a).extractLsb' 1 4).toNat = a.toNat / 2 % 16 := by
    rw [toNat_field, ho]
    omega
  simp only [BusMap.selectIo, BusMap.default, ho, hrow, and_word_eq_iff _ 0x011100#21 rfl,
    and_word_eq_iff _ 0x011200#21 rfl, BitVec.toNat_ofNat]
  split
  · next haux =>
    split
    · next hpsel =>
      refine selected_of_no_rivals ((Target.meets_iff (by decide) a).mpr ?_) (fun _ => ⟨hpsel.1, hpsel.2.1⟩) rfl
      simp only [Target.freeBits, Target.addrPattern, BitVec.toNat_ofNat]
      omega
    · next hpsel =>
      refine ⟨(Target.meets_iff (by decide) a).mpr ?_, fun e => (nomatch e), fun t' ht' hm => ?_⟩
      · simp only [Target.freeBits, Target.addrPattern, BitVec.toNat_ofNat]
        omega
      · cases List.mem_singleton.mp ht'
        rw [Target.meets_iff (by decide)] at hm
        simp only [Target.freeBits, Target.addrPattern, BitVec.toNat_ofNat] at hm
        exact ⟨rfl, fun hb => hpsel ⟨hb.1, hb.2, by omega⟩⟩
  · next haux =>
    split
    · refine selected_of_no_rivals ((Target.meets_iff (by decide) a).mpr ?_) (fun e => (nomatch e)) rfl
      simp only [Target.freeBits, Target.addrPattern, BitVec.toNat_ofNat]
      omega
    · split
      · refine selected_of_no_rivals ((Target.meets_iff (by simp) a).mpr ?_) (fun e => (nomatch e)) rfl
        simp only [Target.freeBits, Target.addrPattern, BitVec.toNat_ofNat, index_ioReg, hreg]
        omega
      · split
        · refine selected_of_no_rivals ((Target.meets_iff (by decide) a).mpr ?_) (fun e => (nomatch e)) rfl
          simp only [Target.freeBits, Target.addrPattern, BitVec.toNat_ofNat]
          omega
        · split
          · refine selected_of_no_rivals ((Target.meets_iff (by decide) a).mpr ?_) (fun e => (nomatch e)) rfl
            simp only [Target.freeBits, Target.addrPattern, BitVec.toNat_ofNat]
            omega
          · refine ⟨(Target.meets_iff (by decide) a).mpr ?_, fun e => (nomatch e), fun t' ht' hm => ?_⟩
            · simp only [Target.freeBits, Target.addrPattern, BitVec.toNat_ofNat]
              omega
            · exfalso
              have hv : t' ≠ .vid := by rintro rfl; revert ht'; decide
              rw [Target.meets_iff hv] at hm
              cases t' with
              | ioreg r =>
                have : r.index < 16 := by cases r <;> decide
                simp only [Target.freeBits, Target.addrPattern, BitVec.toNat_ofNat] at hm
                omega
              | psel | aux | sec | busreq | sreset =>
                simp only [Target.freeBits, Target.addrPattern, BitVec.toNat_ofNat] at hm
                omega
              | _ => simp [Target.rivals] at ht'

/-- The target of an address in a bank of tag `tag` (R104). -/
def selectIn (m : BusMap) (k : MapperKind) (wr : Bool) (b : Addr) (tag : BankTag) : Target :=
  match tag with
  | .rom r => .rom r
  | .ram => .ram
  | .unused => .unused
  | .video => if offsetOf b &&& m.vmask = 0#21 then .vid else .vidinv
  | .io => m.selectIo k wr (offsetOf b)

theorem select_of_tag {m : BusMap} (k : MapperKind) (wr : Bool) {b : Addr} {tag : BankTag}
    (h : m.bankTag[bankOf b] = tag) : m.select k wr .byte b = selectIn m k wr b tag :=
  h ▸ rfl

/-- What the default map's answer says of the address (R104). -/
theorem selected_default (k : MapperKind) (wr : Bool) (sz : Size) (a : Addr) :
    Selected k wr (BusMap.default.select k wr sz a) (align sz a) := by
  rw [select_align]
  generalize align sz a = b
  have hb := val_bankOf b
  rcases default_bankTag (bankOf b) with ⟨hn, r, ht⟩ | ⟨hn, ht⟩ | ⟨hn, ht⟩ | ⟨hn, ht⟩ | ⟨hn, ht⟩ <;>
    rw [hb] at hn <;> rw [select_of_tag k wr ht, selectIn]
  · refine selected_of_no_rivals ((Target.meets_iff (by simp) b).mpr ?_) (fun e => (nomatch e)) rfl
    simp only [Target.freeBits, Target.addrPattern, BitVec.toNat_ofNat]
    omega
  · refine selected_of_no_rivals ((Target.meets_iff (by decide) b).mpr ?_) (fun e => (nomatch e)) rfl
    simp only [Target.freeBits, Target.addrPattern, BitVec.toNat_ofNat]
    omega
  · exact selected_selectIo k wr hn
  · split
    · next hv =>
      exact selected_of_no_rivals ((meets_vid_iff hn).mpr hv) (fun e => (nomatch e)) rfl
    · next hv =>
      refine ⟨(Target.meets_iff (by decide) b).mpr ?_, fun e => (nomatch e), fun t' ht' hm => ?_⟩
      · simp only [Target.freeBits, Target.addrPattern, BitVec.toNat_ofNat]
        omega
      · cases List.mem_singleton.mp ht'
        exact absurd ((meets_vid_iff hn).mp hm) hv
  · refine selected_of_no_rivals ((Target.meets_iff (by decide) b).mpr ?_) (fun e => (nomatch e)) rfl
    simp only [Target.freeBits, Target.addrPattern, BitVec.toNat_ofNat]
    omega

/-! ## The rows of the table -/

/-- The first byte of a bus word: class, `ZERO`, `WR` and `SZ` (R101). -/
def topByte (wr : Bool) (sz : Size) : Byte :=
  0x0#4 ++ 0#2 ++ BitVec.ofBool wr ++ (match sz with | .byte => 0#1 | .word => 1#1)

theorem busWord_eq (wr : Bool) (sz : Size) (a : Addr) : busWord wr sz a = topByte wr sz ++ a := rfl

/-- Where the row of a bus transaction stands in the table (R105). -/
def rowIndex (wr : Bool) (sz : Size) : Target → Nat
  | .psel => 0
  | .aux => 1 + wr.toNat
  | .sec => 3 + 2 * wr.toNat + szBit sz
  | .ioreg r => 7 + 2 * r.index + wr.toNat
  | .busreq => 39 + wr.toNat
  | .sreset => 41 + wr.toNat
  | .ioinv => 43 + wr.toNat
  | .vid => 45 + wr.toNat
  | .vidinv => 47 + wr.toNat
  | .rom _ => 49 + wr.toNat
  | .unused => 51 + wr.toNat
  | .ram => 53 + wr.toNat

/-- The row asks for this first byte and for the target's address bits, and for nothing else. -/
def Row.asks (r : Row) (top : Byte) (t : Target) : Bool :=
  (top &&& r.mask.extractLsb' 24 8 == r.pattern.extractLsb' 24 8) &&
    (r.mask.extractLsb' 0 24 == t.addrMask) && (r.pattern.extractLsb' 0 24 == t.addrPattern)

/-- No word with this first byte and this target's bits has the row's. -/
def Row.clashes (r : Row) (top : Byte) (t : Target) : Bool :=
  (top &&& r.mask.extractLsb' 24 8 != r.pattern.extractLsb' 24 8) ||
    (t.addrPattern &&& r.mask.extractLsb' 0 24 != r.pattern.extractLsb' 0 24 &&& t.addrMask)

/-- A row that stands before the target's own: it clashes, or it is that of a rival. -/
def Row.yields (r : Row) (wr : Bool) (sz : Size) (t : Target) : Bool :=
  r.clashes (topByte wr sz) t ||
    t.rivals.any fun t' => r.asks (topByte wr sz) t' && (t' != .psel || wr && r.banked)

/-- Everything the table has to say of a target. -/
def tableHas (wr : Bool) (sz : Size) (t : Target) (name : String) : Prop :=
  ∃ r : Row, opcodeTable[rowIndex wr sz t]? = some r ∧ r.asks (topByte wr sz) t = true ∧
    (r.banked = true → t = .psel) ∧ r.mnemonic = name ∧
    (opcodeTable.take (rowIndex wr sz t)).all (fun q => q.yields wr sz t) = true

theorem tableHas_busOp (wr : Bool) (sz : Size) (t : Target) (a : Addr) (o : Operands) (hp : t = .psel → wr = true) :
    tableHas wr sz t (busOp wr t sz a o).mnemonic := by
  cases t with
  | psel =>
    obtain rfl := hp rfl
    cases sz <;> exact ⟨_, rfl, rfl, fun _ => rfl, rfl, rfl⟩
  | ioreg r => cases wr <;> cases sz <;> cases r <;> exact ⟨_, rfl, rfl, fun h => absurd h Bool.noConfusion, rfl, rfl⟩
  | rom r => cases wr <;> cases sz <;> fin_cases r <;> exact ⟨_, rfl, rfl, fun h => absurd h Bool.noConfusion, rfl, rfl⟩
  | _ => cases wr <;> cases sz <;> exact ⟨_, rfl, rfl, fun h => absurd h Bool.noConfusion, rfl, rfl⟩

theorem append_eq_append_iff {m n : Nat} (x y : BitVec m) (u v : BitVec n) : x ++ u = y ++ v ↔ x = y ∧ u = v := by
  constructor
  · intro h
    have hu : u = v := by
      have := congrArg (BitVec.setWidth n) h
      rwa [BitVec.setWidth_append_eq_right, BitVec.setWidth_append_eq_right] at this
    exact ⟨(BitVec.append_left_inj u).mp (hu ▸ h), hu⟩
  · rintro ⟨rfl, rfl⟩
    rfl

/-- A row claims a bus word by its first byte and by its address (R105). -/
theorem claims_busWord_iff (r : Row) (k : MapperKind) (wr : Bool) (sz : Size) (a : Addr) :
    r.claims k (busWord wr sz a) = true ↔
      topByte wr sz &&& r.mask.extractLsb' 24 8 = r.pattern.extractLsb' 24 8 ∧
      a &&& r.mask.extractLsb' 0 24 = r.pattern.extractLsb' 0 24 ∧ (r.banked = true → k = .banked) := by
  have hsplit : ∀ x : OpWord, x = x.extractLsb' 24 8 ++ x.extractLsb' 0 24 := fun x => by
    apply BitVec.eq_of_toNat_eq
    rw [toNat_append_eq, toNat_field, toNat_field]
    have := x.isLt
    omega
  have hb : (!r.banked || k == .banked) = true ↔ (r.banked = true → k = .banked) := by
    cases r.banked <;> simp
  rw [Row.claims, Bool.and_eq_true, beq_iff_eq, hb, busWord_eq, hsplit r.mask, hsplit r.pattern, BitVec.and_append,
    append_eq_append_iff, ← hsplit r.mask, ← hsplit r.pattern, and_assoc]

/-- The first row to claim a word names it (R105). -/
theorem firstRow_eq_some {k : MapperKind} {w : OpWord} {n : Nat} {r : Row} (hr : opcodeTable[n]? = some r)
    (hc : r.claims k w = true) (hn : ∀ q ∈ opcodeTable.take n, q.claims k w = false) :
    firstRow k w = some r.mnemonic := by
  obtain ⟨hlt, he⟩ := List.getElem?_eq_some_iff.mp hr
  have hsplit : opcodeTable = opcodeTable.take n ++ r :: opcodeTable.drop (n + 1) := by
    rw [← he, List.cons_getElem_drop_succ, List.take_append_drop]
  rw [firstRow, hsplit, List.find?_append, List.find?_eq_none.mpr fun q hq => by simp [hn q hq], List.find?_cons, hc]
  rfl

/-- The target's own row claims its word. -/
theorem claims_of_selected {k : MapperKind} {wr : Bool} {sz : Size} {t : Target} {a : Addr} {r : Row}
    (hs : Selected k wr t (align sz a)) (hr : r.asks (topByte wr sz) t = true) (hb : r.banked = true → t = .psel) :
    r.claims k (busWord wr sz a) = true := by
  simp only [Row.asks, Bool.and_eq_true, beq_iff_eq] at hr
  obtain ⟨⟨htop, hmask⟩, hpat⟩ := hr
  refine (claims_busWord_iff ..).mpr ⟨htop, ?_, fun h => (hs.psel (hb h)).2⟩
  rw [hmask, hpat]
  exact (t.meets_align sz a).mp hs.meets

/-- No row before it does. -/
theorem not_claims_of_yields {k : MapperKind} {wr : Bool} {sz : Size} {t : Target} {a : Addr} {q : Row}
    (hs : Selected k wr t (align sz a)) (hq : q.yields wr sz t = true) : q.claims k (busWord wr sz a) = false := by
  by_contra hne
  obtain ⟨htop, haddr, hbank⟩ := (claims_busWord_iff ..).mp (Bool.eq_true_of_not_eq_false hne)
  simp only [Row.yields, Row.clashes, Bool.or_eq_true, bne_iff_ne, List.any_eq_true, Bool.and_eq_true] at hq
  rcases hq with (h | h) | ⟨t', ht', hask, hps⟩
  · exact h htop
  · apply h
    have hm : a &&& t.addrMask = t.addrPattern := (t.meets_align sz a).mp hs.meets
    rw [← hm, ← haddr, BitVec.and_assoc, BitVec.and_assoc, BitVec.and_comm t.addrMask]
  · simp only [Row.asks, Bool.and_eq_true, beq_iff_eq] at hask
    obtain ⟨⟨_, hmask⟩, hpat⟩ := hask
    rw [hmask, hpat] at haddr
    obtain ⟨rfl, hno⟩ := hs.rivals t' ht' ((t'.meets_align sz a).mpr haddr)
    rcases hps with h | ⟨hw, hb⟩
    · exact h rfl
    · exact hno ⟨hw, hbank hb⟩

/-- The first row that claims a bus word is that of the operation it decodes to. -/
theorem firstRow_busWord (k : MapperKind) (wr : Bool) (sz : Size) (a : Addr) (o : Operands) :
    firstRow k (busWord wr sz a) = some (busOp wr (BusMap.default.select k wr sz a) sz a o).mnemonic := by
  have hs := selected_default k wr sz a
  obtain ⟨r, hr, hask, hb, hname, hall⟩ := tableHas_busOp wr sz _ a o fun e => (hs.psel e).1
  rw [← hname]
  exact firstRow_eq_some hr (claims_of_selected hs hask hb) fun q hq =>
    not_claims_of_yields hs (List.all_eq_true.mp hall q hq)

/-! ## The calls and the words no row claims -/

/-- A row whose mask covers a field claims only words with its own value there. -/
theorem field_of_claims {r : Row} {k : MapperKind} {w : OpWord} (h : r.claims k w = true) (start len : Nat)
    (hm : r.mask.extractLsb' start len = BitVec.allOnes len) :
    w.extractLsb' start len = r.pattern.extractLsb' start len := by
  simp only [Row.claims, Bool.and_eq_true, beq_iff_eq] at h
  rw [← h.1, BitVec.extractLsb'_and, hm, BitVec.and_allOnes]

/-- Every row has class 0 with `ZERO` 00, or class 1 with one of the nine calls, and its mask says so. -/
theorem row_class (r : Row) (h : r ∈ opcodeTable) : r.mask.extractLsb' 28 4 = BitVec.allOnes 4 ∧
    (r.pattern.extractLsb' 28 4 = 0#4 ∧ r.mask.extractLsb' 26 2 = BitVec.allOnes 2 ∧ r.pattern.extractLsb' 26 2 = 0#2 ∨
      r.pattern.extractLsb' 28 4 = 1#4 ∧ r.mask.extractLsb' 20 8 = BitVec.allOnes 8 ∧
        (r.pattern.extractLsb' 20 8).toNat ≤ 8) := by
  revert r
  decide

/-- The argument bits a call does not use (R102). -/
def argMask : Nat → BitVec 20
  | 2 | 3 => 0xFF000#20
  | 4 | 5 => 0xF0000#20
  | 6 => 0xFF0FF#20
  | _ => 0xFFFFF#20

/-- A row of class 1 asks for its call and for its unused argument bits, and stands at the call's place. -/
theorem row_call (r : Row) (h : r ∈ opcodeTable) (hcls : r.pattern.extractLsb' 28 4 = 1#4) :
    r.banked = false ∧ r.mask = BitVec.allOnes 12 ++ argMask (r.pattern.extractLsb' 20 8).toNat ∧
    r.pattern = (0x1#4 ++ r.pattern.extractLsb' 20 8) ++ 0#20 ∧
    opcodeTable[55 + (r.pattern.extractLsb' 20 8).toNat]? = some r := by
  revert r
  decide

/-- The row of a call. -/
theorem exists_row_call {c : Nat} (hc : c ≤ 8) :
    ∃ r ∈ opcodeTable, r.pattern.extractLsb' 28 4 = 1#4 ∧ (r.pattern.extractLsb' 20 8).toNat = c := by
  rcases call_cases hc with rfl | rfl | rfl | rfl | rfl | rfl | rfl | rfl | rfl <;> decide

theorem and_high_eq_zero_iff (x : BitVec 20) (n : Nat) :
    x &&& BitVec.allOnes 20 <<< n = 0#20 ↔ x.toNat / 2 ^ n = 0 := by
  rw [and_allOnes_shiftLeft_eq_iff x 0#20 (Nat.zero_mod _)]
  simp

theorem and_low_eq_zero_iff (x : BitVec 20) : x &&& 0x000FF#20 = 0#20 ↔ x.toNat % 0x100 = 0 := by
  rw [← BitVec.toNat_inj, BitVec.toNat_and]
  exact Eq.to_iff (congrArg (· = 0) (Nat.and_two_pow_sub_one_eq_mod x.toNat 8))

/-- The unused bits of a call's argument are clear when its mask leaves nothing. -/
theorem argClear_iff {w : OpWord} (hc : (w.extractLsb' 20 8).toNat ≤ 8) :
    argClear w = true ↔ w.extractLsb' 0 20 &&& argMask (w.extractLsb' 20 8).toNat = 0#20 := by
  have h0 : (0xFFFFF#20) = BitVec.allOnes 20 <<< 0 := by decide
  have h12 : (0xFF000#20) = BitVec.allOnes 20 <<< 12 := by decide
  have h16 : (0xF0000#20) = BitVec.allOnes 20 <<< 16 := by decide
  have h6 : (0xFF0FF#20) = BitVec.allOnes 20 <<< 12 ||| 0x000FF#20 := by decide
  rcases call_cases hc with h | h | h | h | h | h | h | h | h <;>
    simp only [argClear, argMask, h, h0, h12, h16, h6, BitVec.and_or_distrib_left, BitVec.or_eq_zero_iff,
      and_high_eq_zero_iff, and_low_eq_zero_iff, arg_eq_zero_iff, argField_eq_zero_iff, Bool.and_eq_true, toNat_arg] <;>
    omega

/-- A word of class 1 is its own fields. -/
theorem eq_envWord {w : OpWord} (h : w.toNat / 0x10000000 = 1) :
    w = (0x1#4 ++ w.extractLsb' 20 8) ++ w.extractLsb' 0 20 := by
  apply BitVec.eq_of_toNat_eq
  rw [toNat_append_eq, toNat_append_eq, toNat_call, toNat_arg, BitVec.toNat_ofNat]
  omega

/-- A row of class 1 claims a word of class 1 by its call and by its unused bits. -/
theorem claims_call_iff {r : Row} {k : MapperKind} {w : OpWord} (hr : r ∈ opcodeTable)
    (hcls : r.pattern.extractLsb' 28 4 = 1#4) (hw : w.toNat / 0x10000000 = 1) :
    r.claims k w = true ↔ w.extractLsb' 20 8 = r.pattern.extractLsb' 20 8 ∧
      w.extractLsb' 0 20 &&& argMask (r.pattern.extractLsb' 20 8).toNat = 0#20 := by
  obtain ⟨hb, hm, hp, _⟩ := row_call r hr hcls
  rw [Row.claims, hb, Bool.not_false, Bool.true_or, Bool.and_true, beq_iff_eq]
  conv => lhs; rw [hp, hm, eq_envWord hw]
  rw [BitVec.and_append, append_eq_append_iff, BitVec.and_allOnes, append_eq_append_iff]
  simp

/-- A row that claims a word of class 1 is a row of class 1. -/
theorem row_class_of_claims {r : Row} {k : MapperKind} {w : OpWord} (hr : r ∈ opcodeTable) (hc : r.claims k w = true) :
    r.pattern.extractLsb' 28 4 = w.extractLsb' 28 4 :=
  (field_of_claims hc 28 4 (row_class r hr).1).symm

theorem extractLsb'_class_eq_one {w : OpWord} (h : w.toNat / 0x10000000 = 1) : w.extractLsb' 28 4 = 1#4 :=
  BitVec.eq_of_toNat_eq ((toNat_class w).trans h)

/-- The one row that claims a word names it. -/
theorem firstRow_of_unique {k : MapperKind} {w : OpWord} {r : Row} (hr : r ∈ opcodeTable) (hc : r.claims k w = true)
    (hu : ∀ q ∈ opcodeTable, q.claims k w = true → q = r) : firstRow k w = some r.mnemonic := by
  obtain ⟨q, hq⟩ := Option.isSome_iff_exists.mp (List.find?_isSome (p := fun q : Row => q.claims k w).mpr ⟨r, hr, hc⟩)
  have : q = r := hu q (List.mem_of_find?_eq_some hq) (List.find?_some (p := fun q : Row => q.claims k w) hq)
  rw [firstRow, hq, this]
  rfl

theorem firstRow_eq_none {k : MapperKind} {w : OpWord} (h : ∀ q ∈ opcodeTable, ¬ q.claims k w = true) :
    firstRow k w = none := by
  rw [firstRow, List.find?_eq_none.mpr h]
  rfl

/-- The row of a call has the name of the operation the call spells. -/
theorem mnemonic_callOp {w : OpWord} (o : Operands) {r : Row} (hr : r ∈ opcodeTable)
    (hcls : r.pattern.extractLsb' 28 4 = 1#4) (hc : w.extractLsb' 20 8 = r.pattern.extractLsb' 20 8)
    (h8 : (w.extractLsb' 20 8).toNat ≤ 8) : (callOp w o).mnemonic = r.mnemonic := by
  obtain ⟨_, _, _, hidx⟩ := row_call r hr hcls
  rw [← hc] at hidx
  rcases call_cases h8 with h | h | h | h | h | h | h | h | h <;>
    rw [h] at hidx <;> simp only [callOp, h] <;> cases hidx <;> rfl

/-- A call with no stray bit is claimed by its own row only. -/
theorem firstRow_call {k : MapperKind} {w : OpWord} (o : Operands) (hw : w.toNat / 0x10000000 = 1)
    (h8 : (w.extractLsb' 20 8).toNat ≤ 8) (harg : argClear w = true) :
    firstRow k w = some (callOp w o).mnemonic := by
  obtain ⟨r, hr, hcls, hcall⟩ := exists_row_call h8
  have hcall' : w.extractLsb' 20 8 = r.pattern.extractLsb' 20 8 := BitVec.eq_of_toNat_eq hcall.symm
  rw [mnemonic_callOp o hr hcls hcall' h8]
  refine firstRow_of_unique hr ((claims_call_iff hr hcls hw).mpr ⟨hcall', ?_⟩) fun q hq hqc => ?_
  · rw [hcall]
    exact (argClear_iff h8).mp harg
  · have hqcls := (row_class_of_claims hq hqc).trans (extractLsb'_class_eq_one hw)
    have hqcall := ((claims_call_iff hq hqcls hw).mp hqc).1
    have h1 := (row_call q hq hqcls).2.2.2
    have h2 := (row_call r hr hcls).2.2.2
    rw [← hqcall, hcall', h2] at h1
    exact (Option.some.inj h1).symm

/-- No row claims a reserved word (R108). -/
theorem not_claims_of_reserved {k : MapperKind} {m : BusMap} {r : Request} {e : DecodeError}
    (h : decode m k r = .invalid e) (q : Row) (hq : q ∈ opcodeTable) : ¬ q.claims k r.opw = true := by
  intro hc
  have hcls := (toNat_class r.opw).symm.trans (congrArg BitVec.toNat (row_class_of_claims hq hc).symm)
  obtain ⟨_, hrow⟩ := row_class q hq
  rcases (decode_eq_invalid_iff m k r e).mp h with ⟨_, h2⟩ | ⟨_, h0, hz⟩ | ⟨_, h1, h8⟩ | ⟨_, h1, h8, harg⟩
  · rcases hrow with ⟨h0, _⟩ | ⟨h1, _⟩
    · rw [h0, BitVec.toNat_ofNat] at hcls
      omega
    · rw [h1, BitVec.toNat_ofNat] at hcls
      omega
  · rcases hrow with ⟨_, hm, hp⟩ | ⟨h1, _⟩
    · have := congrArg BitVec.toNat (field_of_claims hc 26 2 hm)
      rw [hp, toNat_field, BitVec.toNat_ofNat] at this
      omega
    · rw [h1, BitVec.toNat_ofNat] at hcls
      omega
  · rcases hrow with ⟨h0, _⟩ | ⟨_, hm, hp⟩
    · rw [h0, BitVec.toNat_ofNat] at hcls
      omega
    · rw [field_of_claims hc 20 8 hm] at h8
      omega
  · have hqcls := (row_class_of_claims hq hc).trans (extractLsb'_class_eq_one h1)
    obtain ⟨hcall, hstray⟩ := (claims_call_iff hq hqcls h1).mp hc
    rw [← hcall] at hstray
    exact harg ((argClear_iff h8).mpr hstray)

/-- Settles O3: the row of a bus transaction is the first to claim its word, that of a call the only one, and a reserved
word has none. -/
theorem decodeFollowsTheOpcodeTable : Obligations.DecodeFollowsTheOpcodeTable := by
  intro k r
  cases h : decode BusMap.default k r with
  | ok i =>
    rcases decode_ok_cases h with ⟨wr, sz, a, he, rfl⟩ | ⟨hcls, hcall, harg, rfl⟩
    · exact he ▸ firstRow_busWord k wr sz a r.ops
    · exact firstRow_call r.ops hcls hcall harg
  | invalid e => exact firstRow_eq_none (not_claims_of_reserved h)

end Sys2Proof
end

section
/-! PROOF. The lanes of the bus (20_memory.md R76): a word access of a target that acts by lanes is two byte accesses. -/

namespace Sys2Proof.Machine

/-! ## One operation after another -/

theorem performAll_cons {i : Instr} {s t : State} (h : exec i s = .next t) (is : List Instr) :
    performAll (i :: is) s = performAll is t := by
  rw [performAll, h]

theorem performAll_singleton (i : Instr) (s : State) : performAll [i] s = exec i s := by
  rw [performAll]
  cases exec i s <;> rfl

/-! ## Writes -/

/-- The writes `f` act by lanes: each byte that reaches a lane does what `lane` says, whatever the last result was. -/
structure WritesLanes (f : Size → Addr → Word → Instr) (lane : Addr → Byte → State → State) : Prop where
  exec_eq : ∀ sz a d s, exec (f sz a d) s = (writeLanes sz a d lane s).finish .none
  withResult : ∀ a v s r, lane a v (s.withResult r) = (lane a v s).withResult r

theorem loByte_setWidth_byte (b : Byte) : loByte (b.setWidth 16) = b := by
  apply BitVec.eq_of_toNat_eq
  have hb := b.isLt
  rw [loByte, toNat_field, BitVec.toNat_setWidth]
  omega

/-- By lanes, a word write is the write of its high byte and then that of its low byte. -/
theorem WritesLanes.word {f : Size → Addr → Word → Instr} {lane : Addr → Byte → State → State}
    (h : WritesLanes f lane) (s : State) (a : Addr) (d : Word) :
    (∃ t, exec (f .word a d) s = .next t) ∧
    exec (f .word a d) s =
      performAll [f .byte (evenAddr a) ((d.extractLsb' 8 8).setWidth 16),
        f .byte (evenAddr a + 1#24) ((d.extractLsb' 0 8).setWidth 16)] s := by
  refine ⟨⟨_, h.exec_eq ..⟩, ?_⟩
  have hhi : exec (f .byte (evenAddr a) ((d.extractLsb' 8 8).setWidth 16)) s =
      .next ((lane (evenAddr a) (hiByte d) s).withResult .none) := by
    rw [h.exec_eq, writeLanes, loByte_setWidth_byte]
    rfl
  rw [performAll_cons hhi, performAll_singleton, h.exec_eq, h.exec_eq, writeLanes_word, writeLanes,
    loByte_setWidth_byte, h.withResult]
  rfl

theorem writesLanes_register {f : Size → Addr → Word → Instr} {w : Byte → State → State}
    (hf : ∀ sz a d s, exec (f sz a d) s = writeRegister sz a d w s)
    (hw : ∀ v s r, w v (s.withResult r) = (w v s).withResult r) : WritesLanes f (toLoRegister w) :=
  ⟨hf, fun a v s r => by rw [toLoRegister, toLoRegister, hw, apply_ite (State.withResult · r)]⟩

theorem writesLanes_hiRegister {f : Size → Addr → Word → Instr} {w : Byte → State → State}
    (hf : ∀ sz a d s, exec (f sz a d) s = (writeLanes sz a d (toHiRegister w) s).finish .none)
    (hw : ∀ v s r, w v (s.withResult r) = (w v s).withResult r) : WritesLanes f (toHiRegister w) :=
  ⟨hf, fun a v s r => by rw [toHiRegister, toHiRegister, hw, apply_ite (State.withResult · r)]⟩

theorem writesLanes_discard {f : Size → Addr → Word → Instr} (hf : ∀ sz a d s, exec (f sz a d) s = s.finish .none) :
    WritesLanes f fun _ _ s => s :=
  ⟨fun sz a d s => by cases sz <;> exact hf .., fun _ _ _ _ => rfl⟩

theorem pselWrite_withResult (i v : Byte) (s : State) (r : Result) :
    pselWrite i v (s.withResult r) = (pselWrite i v s).withResult r := by
  unfold pselWrite
  split
  · rfl
  · split <;> rfl

theorem cmAuxWriteByte_withResult (i v : Byte) (s : State) (r : Result) :
    cmAuxWriteByte i v (s.withResult r) = (cmAuxWriteByte i v s).withResult r := by
  unfold cmAuxWriteByte
  rw [State.withResult_mapper]
  split
  · rfl
  · rw [pselWrite_withResult, apply_ite (State.withResult · r)]
  · rfl
  · rfl

theorem cmWriteByte_withResult (c : Addr) (v : Byte) (s : State) (r : Result) :
    cmWriteByte c v (s.withResult r) = (cmWriteByte c v s).withResult r := by
  unfold cmWriteByte
  rw [State.withResult_mapper, State.withResult_session]
  split
  · next st i _ => cases st <;> rfl
  · split <;> rfl

theorem requestRelease_withResult (clk : Clk) (want : Bool) (s : State) (r : Result) :
    requestRelease clk want (s.withResult r) = (requestRelease clk want s).withResult r := by
  unfold requestRelease
  rw [State.withResult_arb, stopEdge_eq, stopEdge_eq, apply_ite (State.withResult · r),
    apply_ite (State.withResult · r)]
  rfl

theorem resetLine_withResult (on : Bool) (s : State) (r : Result) :
    resetLine on (s.withResult r) = (resetLine on s).withResult r := by
  unfold resetLine
  rw [State.withResult_arb, apply_ite (State.withResult · r), apply_ite (State.withResult · r)]
  rfl

/-- Every write of the list acts by lanes. -/
theorem writesLanes_of_mem (r : Fin 5) (clk : Clk) : ∀ f ∈ laneWrites r clk, ∃ lane, WritesLanes f lane := by
  have hdata : ∀ p v s r, writeData p v (s.withResult r) = (writeData p v s).withResult r := fun _ _ _ _ => rfl
  have hctrl : ∀ p v s r, writeCtrl p v (s.withResult r) = (writeCtrl p v s).withResult r := fun _ _ _ _ => rfl
  have htx : ∀ p v s r, writeSerTx p v (s.withResult r) = (writeSerTx p v s).withResult r := fun _ _ _ _ => rfl
  have hsc : ∀ p v s r, writeSerCtrl p v (s.withResult r) = (writeSerCtrl p v s).withResult r := fun _ _ _ _ => rfl
  have hnone : ∀ (v : Byte) (s : State) r, (fun _ t => t : Byte → State → State) v (s.withResult r) =
    ((fun _ t => t : Byte → State → State) v s).withResult r := fun _ _ _ => rfl
  simp only [laneWrites, List.forall_mem_cons, List.not_mem_nil, false_imp_iff, implies_true, and_true]
  refine ⟨⟨_, fun _ _ _ _ => rfl, fun a => pselWrite_withResult (auxIndex a)⟩,
    ⟨_, fun _ _ _ _ => rfl, fun a => cmAuxWriteByte_withResult (auxIndex a)⟩,
    ⟨_, writesLanes_register (fun _ _ _ _ => rfl) hnone⟩,
    ⟨_, writesLanes_register (fun _ _ _ _ => rfl) (hdata 0)⟩,
    ⟨_, writesLanes_register (fun _ _ _ _ => rfl) (hdata 1)⟩,
    ⟨_, writesLanes_register (fun _ _ _ _ => rfl) (hdata 2)⟩,
    ⟨_, writesLanes_register (fun _ _ _ _ => rfl) (hctrl 0)⟩,
    ⟨_, writesLanes_register (fun _ _ _ _ => rfl) (hctrl 1)⟩,
    ⟨_, writesLanes_register (fun _ _ _ _ => rfl) (hctrl 2)⟩,
    ⟨_, writesLanes_register (fun _ _ _ _ => rfl) (htx 0)⟩,
    ⟨_, writesLanes_register (fun _ _ _ _ => rfl) hnone⟩,
    ⟨_, writesLanes_register (fun _ _ _ _ => rfl) (hsc 0)⟩,
    ⟨_, writesLanes_register (fun _ _ _ _ => rfl) (htx 1)⟩,
    ⟨_, writesLanes_register (fun _ _ _ _ => rfl) hnone⟩,
    ⟨_, writesLanes_register (fun _ _ _ _ => rfl) (hsc 1)⟩,
    ⟨_, writesLanes_register (fun _ _ _ _ => rfl) (htx 2)⟩,
    ⟨_, writesLanes_register (fun _ _ _ _ => rfl) hnone⟩,
    ⟨_, writesLanes_register (fun _ _ _ _ => rfl) (hsc 2)⟩,
    ⟨_, writesLanes_hiRegister (fun _ _ _ _ => rfl) fun _ => requestRelease_withResult clk _⟩,
    ⟨_, writesLanes_hiRegister (fun _ _ _ _ => rfl) fun _ => resetLine_withResult _⟩,
    ⟨_, writesLanes_discard fun _ _ _ _ => rfl⟩, ⟨_, writesLanes_discard fun _ _ _ _ => rfl⟩,
    ⟨_, fun _ _ _ _ => rfl, fun a => cmWriteByte_withResult (cartAddr r a)⟩,
    ⟨_, writesLanes_discard fun _ _ _ _ => rfl⟩,
    ⟨_, fun _ _ _ _ => rfl, fun _ _ _ _ => rfl⟩⟩

/-- Settles O13: each of these writes acts by lanes. -/
theorem wordWriteIsTwoByteWrites : Obligations.WordWriteIsTwoByteWrites := by
  intro r clk f hf s a d
  obtain ⟨lane, h⟩ := writesLanes_of_mem r clk f hf
  exact h.word s a d

/-! ## Reads -/

/-- The reads `f` act by lanes: each lane shows what `lane` says of the state. -/
def ReadsLanes (f : Size → Addr → Instr) (lane : State → Addr → Byte) : Prop :=
  ∀ sz a s, exec (f sz a) s = s.finish (readLanes sz a (lane s))

theorem readsLanes_sentinel {f : Size → Addr → Instr} (hf : ∀ sz a s, exec (f sz a) s = s.finish (sentinel sz)) :
    ReadsLanes f fun _ _ => 0xFF#8 := fun sz a s => by
  rw [hf, sentinel_eq, readLanes_allOnes]

/-- Every read of the list acts by lanes. -/
theorem readsLanes_of_mem (r : Fin 5) (clk : Clk) : ∀ f ∈ laneReads r clk, ∃ lane, ReadsLanes f lane := by
  simp only [laneReads, List.forall_mem_cons, List.not_mem_nil, false_imp_iff, implies_true, and_true]
  exact ⟨⟨_, fun _ _ _ => rfl⟩, ⟨_, fun _ _ _ => rfl⟩, ⟨_, fun _ _ _ => rfl⟩, ⟨_, fun _ _ _ => rfl⟩,
    ⟨_, fun _ _ _ => rfl⟩, ⟨_, fun _ _ _ => rfl⟩, ⟨_, fun _ _ _ => rfl⟩, ⟨_, fun _ _ _ => rfl⟩,
    ⟨_, fun _ _ _ => rfl⟩, ⟨_, fun _ _ _ => rfl⟩, ⟨_, fun _ _ _ => rfl⟩, ⟨_, fun _ _ _ => rfl⟩,
    ⟨_, fun _ _ _ => rfl⟩, ⟨_, fun _ _ _ => rfl⟩, ⟨_, fun _ _ _ => rfl⟩, ⟨_, fun _ _ _ => rfl⟩,
    ⟨_, fun _ _ _ => rfl⟩, ⟨_, fun _ _ _ => rfl⟩,
    ⟨_, readsLanes_sentinel fun _ _ _ => rfl⟩, ⟨_, readsLanes_sentinel fun _ _ _ => rfl⟩,
    ⟨_, readsLanes_sentinel fun _ _ _ => rfl⟩, ⟨_, fun _ _ _ => rfl⟩,
    ⟨_, readsLanes_sentinel fun _ _ _ => rfl⟩, ⟨_, fun _ _ _ => rfl⟩⟩

/-- Settles O14: each of these reads acts by lanes, and both lanes are read from the same state. -/
theorem wordReadIsTwoByteReads : Obligations.WordReadIsTwoByteReads := by
  intro r clk f hf s a
  obtain ⟨lane, h⟩ := readsLanes_of_mem r clk f hf
  refine ⟨lane s (evenAddr a), lane s (evenAddr a + 1#24), h .byte _ s, h .byte _ s, ?_⟩
  rw [h, readLanes_word]
  rfl

end Sys2Proof.Machine
end

section
/-! PROOF. The router's targets (40_router.md): reads of work RAM, the secondary CPU's window and the video facade. -/

namespace Sys2Proof.Machine

/-! ## Reads of work RAM -/

theorem exec_ramRd_byte (a : Addr) (s : State) :
    exec (.ramRd .byte a) s = .next { s with result := .byte (s.ramByte (a.toNat % 0x10000)) } := by
  rw [← ramIndex_eq]
  rfl

theorem exec_ramRd_word (a : Addr) (s : State) :
    exec (.ramRd .word a) s = .next { s with
      result := .word (s.ramByte (a.toNat % 0x10000 / 2 * 2) ++ s.ramByte (a.toNat % 0x10000 / 2 * 2 + 1)) } := by
  rw [← ramIndex_evenAddr_succ, ← ramIndex_evenAddr]
  exact congrArg s.finish (readLanes_word a fun a => s.ramByte (ramIndex a))

/-- Settles O15: the index is the address's low half, and the even index and the next of a word; a byte with nothing
listed is the power-on draw's. -/
theorem ramReadReturnsTheIndexedBytes : Obligations.RamReadReturnsTheIndexedBytes := by
  intro s a
  refine ⟨exec_ramRd_byte a s, exec_ramRd_word a s, fun h => ?_⟩
  rw [exec_ramRd_byte, State.ramByte, h]
  rfl

/-! ## The secondary CPU's window -/

/-- The window is open while the request is held and reset is not (10_state.md R35). -/
theorem windowOpen_iff (b : Arbiter) : b.windowOpen = true ↔ b.req = true ∧ b.rst = false := by
  simp [Arbiter.windowOpen]

theorem secReadWith_eq (a16 : BitVec 16) (shown : Byte → Result) (s : State) :
    secReadWith a16 shown s =
      if s.arb.req = true ∧ s.arb.rst = false then
        .next { s with result := shown (Config.secRead s.draws a16), draws := s.draws + 1 }
      else .next { s with result := shown 0x00#8 } :=
  if_congr (windowOpen_iff s.arb) rfl rfl

theorem secWriteWith_eq (a16 : BitVec 16) (v : Byte) (s : State) :
    secWriteWith a16 v s =
      if s.arb.req = true ∧ s.arb.rst = false then
        .next { s with result := .none, events := s.events ++ [.secWrite a16 v] }
      else .next { s with result := .none } :=
  if_congr (windowOpen_iff s.arb) rfl rfl

/-- Settles O23: both byte forms go through the window at `offset[15:0]`. -/
theorem secondaryByteAccessNeedsTheOpenWindow : Obligations.SecondaryByteAccessNeedsTheOpenWindow := by
  intro s a d
  rw [← secAddr_eq]
  exact ⟨secReadWith_eq .., secWriteWith_eq ..⟩

/-- Settles O24: both word forms go through the window once, at the even address. -/
theorem secondaryWordAccessMovesOneByte : Obligations.SecondaryWordAccessMovesOneByte := by
  intro s a d
  rw [← secAddr_evenAddr, ← align_word]
  exact ⟨secReadWith_eq _ (fun b => .word (b ++ b)) s, secWriteWith_eq ..⟩

/-! ## The video facade -/

/-- Settles O25: each form is one call of the facade with the whole value. -/
theorem videoAccessIsForwardedWhole : Obligations.VideoAccessIsForwardedWhole := by
  intro s a d
  rw [← align_word]
  exact ⟨rfl, rfl, rfl, rfl⟩

end Sys2Proof.Machine
end

section
/-! PROOF. The cartridge mapper (41_cartridge_mapper.md): reads of the cartridge, the page selectors, save memory and the
auxiliary window. -/

namespace Sys2Proof.Machine

/-! ## Reads -/

theorem exec_romRd_byte (r : Fin 5) (a : Addr) (s : State) :
    exec (.romRd .byte r a) s =
      .next { s with result := .byte (cmReadByte s (BitVec.ofNat 24 (cartNat r a))) } := by
  rw [← cartAddr_eq]
  rfl

/-- Settles O17: the lanes of a word are at the even cartridge address and the next. -/
theorem romReadAsksTheMapperAtTheCartridgeAddress : Obligations.RomReadAsksTheMapperAtTheCartridgeAddress := by
  intro s r a
  refine ⟨exec_romRd_byte r a s, ?_⟩
  rw [← cartNat_evenAddr_succ, ← cartNat_evenAddr, ← cartAddr_eq, ← cartAddr_eq]
  exact congrArg s.finish (readLanes_word a fun a => cmReadByte s (cartAddr r a))

theorem imageByte_eq (r : RomImage) (o : Nat) : imageByte r o = romAt r o := rfl

/-- BANKED resolution, window by window (R165). -/
theorem resolveBanked_eq_dite (s : State) (c : Addr) :
    resolveBanked s.session.rom s.pageMap c =
      if h : c.toNat / 0x80000 < 8 then
        imageByte s.session.rom
          ((if (s.page ⟨c.toNat / 0x80000, h⟩).toNat * 0x80000 < s.session.rom.len
            then (s.page ⟨c.toNat / 0x80000, h⟩).toNat else c.toNat / 0x80000) * 0x80000 + c.toNat % 0x80000)
      else imageByte s.session.rom c.toNat := by
  by_cases h : c.toNat / 0x80000 < 8
  · rw [dif_pos h, resolveBanked_eq (w := ⟨c.toNat / 0x80000, h⟩) _ _ rfl, effectivePage_eq]
    rfl
  · rw [dif_neg h, resolveBanked_flat _ _ (Nat.le_of_not_lt h)]
    rfl

/-- FIXEDCONST resolution (R166). -/
theorem resolveFixedConst_eq (x : Session) (c : Addr) :
    resolveFixedConst x c =
      if h : x.fcBase ≤ c.toNat ∧ c.toNat - x.fcBase < x.fc.length then
        if x.fc[c.toNat - x.fcBase].mask then x.fc[c.toNat - x.fcBase].const else imageByte x.rom c.toNat
      else imageByte x.rom c.toNat := by
  unfold resolveFixedConst
  by_cases hb : x.fcBase ≤ c.toNat
  · by_cases hl : c.toNat - x.fcBase < x.fc.length
    · rw [if_pos hb, dif_pos ⟨hb, hl⟩, List.getElem?_eq_getElem hl]
      rfl
    · rw [if_pos hb, dif_neg fun h => hl h.2, List.getElem?_eq_none (Nat.le_of_not_lt hl)]
      rfl
  · rw [if_neg hb, dif_neg fun h => hb h.1]
    rfl

/-- Settles O18: the selected store answers first, the EEPROM window before the battery RAM's, and then the variant. -/
theorem cartridgeReadFollowsThePriority : Obligations.CartridgeReadFollowsThePriority := by
  intro s c
  by_cases he : s.session.eepEn = true ∧ s.session.eepStart ≤ c.toNat ∧ c.toNat ≤ s.session.eepEnd
  · rw [if_pos he, cmReadByte, Session.saveSel, if_pos he]
    rfl
  · rw [if_neg he]
    by_cases hs : s.session.sramEn = true ∧ s.session.sramStart ≤ c.toNat ∧ c.toNat ≤ s.session.sramEnd
    · rw [if_pos hs, cmReadByte, Session.saveSel, if_neg he, if_pos hs]
      rfl
    · rw [if_neg hs, cmReadByte, Session.saveSel, if_neg he, if_neg hs]
      cases hm : s.mapper with
      | flat => simp only [resolve, hm, imageByte_eq]
      | banked => simp only [resolve, hm, resolveBanked_eq_dite]
      | fixedConst => simp only [resolve, hm, resolveFixedConst_eq]
      | quirk q => simp only [resolve, hm]

/-- A window whose selector is beyond the image shows the page of its own number (R165). -/
theorem cmReadByte_of_selector_beyond {s : State} {c : Addr} {w : Fin 8} (hm : s.mapper = .banked)
    (hs : Session.saveSel s.session c = none) (hw : c.toNat / 0x80000 = w.val)
    (hp : pages s.session.rom ≤ (s.page w).toNat) : cmReadByte s c = imageByte s.session.rom c.toNat := by
  have he : effectivePage s.session.rom s.pageMap w = w.val := if_neg (Nat.not_lt.mpr hp)
  simp only [cmReadByte, hs, resolve, hm]
  rw [resolveBanked_eq _ _ hw, he, ← hw, Nat.div_add_mod' c.toNat 0x80000]
  rfl

/-- A window whose selector is its own number shows the page of that number. -/
theorem cmReadByte_of_selector_identity {s : State} {c : Addr} {w : Fin 8} (hm : s.mapper = .banked)
    (hs : Session.saveSel s.session c = none) (hw : c.toNat / 0x80000 = w.val)
    (hp : (s.page w).toNat = w.val) : cmReadByte s c = imageByte s.session.rom c.toNat := by
  have he : effectivePage s.session.rom s.pageMap w = w.val := by
    unfold effectivePage
    split
    · exact hp
    · rfl
  simp only [cmReadByte, hs, resolve, hm]
  rw [resolveBanked_eq _ _ hw, he, ← hw, Nat.div_add_mod' c.toNat 0x80000]
  rfl

/-- Settles O19: with either selector the window shows the identity page. -/
theorem selectorBeyondTheImageReadsIdentity : Obligations.SelectorBeyondTheImageReadsIdentity := by
  intro s r a w hm hs hw hp
  have hn : (BitVec.ofNat 24 (cartNat r a)).toNat = cartNat r a := by rw [← cartAddr_eq, toNat_cartAddr]
  have h1 : cmReadByte s (BitVec.ofNat 24 (cartNat r a)) = imageByte s.session.rom (cartNat r a) := by
    rw [cmReadByte_of_selector_beyond hm hs (hn.symm ▸ hw) hp, hn]
  have h2 : cmReadByte (s.setPage w (BitVec.ofNat 6 w.val)) (BitVec.ofNat 24 (cartNat r a)) =
      imageByte s.session.rom (cartNat r a) := by
    rw [cmReadByte_of_selector_identity (w := w) (s := s.setPage w (BitVec.ofNat 6 w.val)) hm hs (hn.symm ▸ hw), hn]
    · rfl
    · rw [State.page_setPage, if_pos rfl, BitVec.toNat_ofNat]
      omega
  rw [exec_romRd_byte, exec_romRd_byte, h1, h2]
  exact ⟨rfl, rfl⟩

/-! ## The selectors -/

/-- The window a selector address names: `ADDR[3:1]` (R176). -/
def selectorOf (a : Addr) : Fin 8 := ⟨a.toNat / 2 % 8, by omega⟩

/-- The selector of the window an address names takes the low six bits, and that of window 0 none (R176). -/
def setSelector (a : Addr) (v : Byte) (s : State) : State :=
  if (selectorOf a).val = 0 then s else s.setPage (selectorOf a) (v.extractLsb' 0 6)

theorem pselWrite_eq_setSelector (a : Addr) (v : Byte) (s : State) :
    pselWrite (auxIndex a) v s = toLoRegister (setSelector a) a v s := pselWrite_eq a v s

/-- Both lanes of a word name one window. -/
theorem setSelector_evenAddr_succ (a : Addr) : setSelector (evenAddr a + 1#24) = setSelector a := by
  have h : selectorOf (evenAddr a + 1#24) = selectorOf a := by
    apply Fin.ext
    simp only [selectorOf, toNat_evenAddr_succ]
    omega
  funext v s
  rw [setSelector, setSelector, h]

theorem exec_pselWr (sz : Size) (a : Addr) (d : Word) (s : State) :
    exec (.pselWr sz a d) s = (if reachesLo sz a then setSelector a (loByte d) s else s).finish .none := by
  have he : exec (.pselWr sz a d) s =
      (writeLanes sz a d (fun a v t => toLoRegister (setSelector a) a v t) s).finish .none := by
    simp only [← pselWrite_eq_setSelector]
    rfl
  rw [he]
  congr 1
  cases sz with
  | byte => exact writeLanes_toLoRegister a .byte d (setSelector a) s
  | word =>
    rw [writeLanes_word, setSelector_evenAddr_succ, toLoRegister, toLoRegister, if_pos (onLoLane_evenAddr_succ a),
      if_neg (by rw [onLoLane_evenAddr]; decide)]
    rfl

theorem page_setSelector (a : Addr) (v : Byte) (s : State) (w : Fin 8) :
    (setSelector a v s).page w = if w.val ≠ 0 ∧ w.val = a.toNat / 2 % 8 then v.extractLsb' 0 6 else s.page w := by
  have hw : w = selectorOf a ↔ w.val = a.toNat / 2 % 8 := Fin.ext_iff
  unfold setSelector
  split
  · next h0 =>
    have h0' : a.toNat / 2 % 8 = 0 := h0
    rw [if_neg fun h => h.1 (h.2.trans h0')]
  · next h0 =>
    rw [State.page_setPage]
    exact if_congr (hw.trans ⟨fun h => ⟨fun hz => h0 (h.symm.trans hz), h⟩, And.right⟩) rfl rfl

/-- A selector write changes the selectors only. -/
theorem setSelector_frame (a : Addr) (v : Byte) (s : State) :
    setSelector a v s = { s with pageMap := (setSelector a v s).pageMap } := by
  unfold setSelector
  split <;> rfl

theorem loByte_low (d : Word) : (loByte d).extractLsb' 0 6 = d.extractLsb' 0 6 := by
  apply BitVec.eq_of_toNat_eq
  rw [loByte, toNat_field, toNat_field, toNat_field]
  omega

/-- Settles O20: at either width the write is that of a register on the LO lane. -/
theorem selectorWriteSetsOneUnpinnedWindow : Obligations.SelectorWriteSetsOneUnpinnedWindow := by
  intro s sz a d
  refine ⟨_, exec_pselWr sz a d s, ?_, fun w => ?_⟩
  · cases reachesLo sz a with
    | true => rw [if_pos rfl, setSelector_frame]; rfl
    | false => rfl
  · cases reachesLo sz a with
    | true =>
      refine (page_setSelector a (loByte d) s w).trans ?_
      rw [loByte_low]
      simp only [and_true]
    | false =>
      simp only [Bool.false_eq_true, if_false, and_false]
      rfl

/-! ## Save memory -/

theorem exec_romWr_byte (r : Fin 5) (a : Addr) (d : Word) (s : State) :
    exec (.romWr .byte r a d) s =
      (cmWriteByte (BitVec.ofNat 24 (cartNat r a)) (d.extractLsb' 0 8) s).finish .none := by
  rw [← cartAddr_eq]
  rfl

/-- Settles O21: outside the save windows only a QUIRK cartridge's state can change; inside one, the laws of the selected
store say what each index and each cartridge address holds. -/
theorem cartridgeWriteReachesOnlySaveMemory : Obligations.CartridgeWriteReachesOnlySaveMemory := by
  intro s r a d
  have hn : (BitVec.ofNat 24 (cartNat r a)).toNat = cartNat r a := by rw [← cartAddr_eq, toNat_cartAddr]
  refine ⟨_, exec_romWr_byte r a d s, fun hs => ?_, fun st i hs => ?_⟩
  · cases hm : s.mapper with
    | quirk q => simp only [cmWriteByte, hs, hm]; rfl
    | _ => simp only [cmWriteByte, hs, hm]; rw [← hm]; rfl
  · have hw : cmWriteByte (BitVec.ofNat 24 (cartNat r a)) (d.extractLsb' 0 8) s =
        s.setStoreByte st i (d.extractLsb' 0 8) := by simp only [cmWriteByte, hs]
    rw [hw]
    refine ⟨?_, fun st' j => ?_, fun c => ?_⟩
    · rw [State.setStoreByte_eq]
      rfl
    · exact State.storeByte_setStoreByte s st st' i j _
    · refine (cmReadByte_setStoreByte hs _ c).trans (if_congr ?_ rfl rfl)
      rw [← BitVec.toNat_inj, hn]

/-! ## The auxiliary window -/

theorem cmAuxReadByte_of_ne_quirk {s : State} (h : s.mapper.kind ≠ .quirk) (i : Byte) : cmAuxReadByte s i = 0xFF#8 := by
  unfold cmAuxReadByte
  cases hm : s.mapper with
  | quirk q => exact absurd (congrArg Mapper.kind hm) h
  | _ => rfl

/-- Below the selectors an auxiliary write is ignored, but by a QUIRK cartridge (R173). -/
theorem cmAuxWriteByte_of_ne_quirk {s : State} {a : Addr} (h : s.mapper.kind ≠ .quirk)
    (hrow : s.mapper.kind = .banked → a.toNat / 16 % 16 ≠ 15) (v : Byte) : cmAuxWriteByte (auxIndex a) v s = s := by
  unfold cmAuxWriteByte
  cases hm : s.mapper with
  | quirk q => exact absurd (congrArg Mapper.kind hm) h
  | banked =>
    refine if_neg fun hi => hrow (congrArg Mapper.kind hm) ?_
    rw [← toNat_auxRow, hi]
    rfl
  | _ => rfl

/-- An ignored byte is ignored on either lane. -/
theorem exec_auxWr_of_ne_quirk {s : State} {a : Addr} (h : s.mapper.kind ≠ .quirk)
    (hrow : s.mapper.kind = .banked → a.toNat / 16 % 16 ≠ 15) (sz : Size) (d : Word) :
    exec (.auxWr sz a d) s = s.finish .none := by
  have he : exec (.auxWr sz a d) s =
      (writeLanes sz a d (fun a v t => cmAuxWriteByte (auxIndex a) v t) s).finish .none := rfl
  rw [he]
  congr 1
  cases sz with
  | byte => exact cmAuxWriteByte_of_ne_quirk h hrow _
  | word =>
    have hrow' : s.mapper.kind = .banked →
        (evenAddr a).toNat / 16 % 16 ≠ 15 ∧ (evenAddr a + 1#24).toNat / 16 % 16 ≠ 15 := fun hb => by
      have := hrow hb
      rw [toNat_evenAddr, toNat_evenAddr_succ]
      omega
    rw [writeLanes_word, cmAuxWriteByte_of_ne_quirk h fun hb => (hrow' hb).1,
      cmAuxWriteByte_of_ne_quirk h fun hb => (hrow' hb).2]

/-- Settles O22: without a quirk every lane reads all ones and ignores its byte; with one, the hooks answer at the
address's index. -/
theorem auxiliaryWindowBelongsToTheMapper : Obligations.AuxiliaryWindowBelongsToTheMapper := by
  intro s sz a d
  refine ⟨fun h => ?_, fun h hrow => exec_auxWr_of_ne_quirk h hrow sz d, fun q hq => ?_⟩
  · have he : exec (.auxRd sz a) s = s.finish (readLanes sz a fun a => cmAuxReadByte s (auxIndex a)) := rfl
    simp only [he, cmAuxReadByte_of_ne_quirk h, readLanes_allOnes]
    rfl
  · rw [← auxIndex_eq]
    have hr : cmAuxReadByte s (auxIndex a) = Config.quirkAuxRead q.hooks q.state (auxIndex a) := by
      simp only [cmAuxReadByte, hq]
    have hw : cmAuxWriteByte (auxIndex a) (loByte d) s = s.withMapper (.quirk { q with
        state := Config.quirkAuxWrite q.hooks q.state (auxIndex a) (loByte d) }) := by
      simp only [cmAuxWriteByte, hq]
    exact ⟨congrArg (fun b => s.finish (.byte b)) hr, congrArg (fun t : State => t.finish .none) hw⟩

end Sys2Proof.Machine
end

section
/-! PROOF. The bus arbiter (42_bus_arbiter.md): the two edge-triggered lines, the status byte and the cycle conversion. -/

namespace Sys2Proof.Machine

/-! ## The request line -/

/-- A request write: the byte on the HI lane drives the line (R204). -/
theorem exec_busreqWr (sz : Size) (a : Addr) (d : Word) (clk : Clk) (s : State) :
    exec (.busreqWr sz a d clk) s =
      (if reachesHi sz a then requestRelease clk (!(hiData sz d).getLsbD 0) s else s).finish .none :=
  congrArg (State.finish · .none) (writeLanes_toHiRegister a sz d _ s)

/-- What the line is asked for that it already has is no edge (R194). -/
theorem requestRelease_of_no_edge (clk : Clk) {want : Bool} {s : State} (h : s.arb.req = !want) :
    requestRelease clk want s = s := by
  cases want <;> simp [requestRelease, h]

theorem requestRelease_stop (clk : Clk) {s : State} (h : s.arb.req = false) :
    requestRelease clk false s = stopEdge clk s := by simp [requestRelease, h]

theorem requestRelease_resume (clk : Clk) {s : State} (h : s.arb.req = true) :
    requestRelease clk true s = resumeEdge clk s := by simp [requestRelease, h]

/-- Settles O26: the conversion's laws, and each edge with what it records and emits. -/
theorem busRequestEdgesKeepTheClocksInStep : Obligations.BusRequestEdgesKeepTheClocksInStep := by
  refine ⟨fun c m n => ⟨fun h => conv_of_pos h n, conv_zero c, conv_mono c⟩, fun s sz a d clk hhi => ?_⟩
  constructor <;> intro hbit hreq <;> rw [exec_busreqWr, if_pos hhi, hbit]
  · rw [Bool.not_true, requestRelease_stop clk hreq, stopEdge_eq]
    rfl
  · rw [Bool.not_false, requestRelease_resume clk hreq, resumeEdge_eq]
    rfl

/-- Settles O27: a write that does not reach the line, and one that asks for the level it has. -/
theorem requestLineActsOnEdgesOnly : Obligations.RequestLineActsOnEdgesOnly := by
  intro s sz a d clk
  refine ⟨fun h => ?_, fun want h => requestRelease_of_no_edge clk h, _, rfl⟩
  rw [exec_busreqWr]
  rcases h with h | h
  · rw [h]
    rfl
  · rw [requestRelease_of_no_edge clk (by rw [h, Bool.not_not]), ite_self]
    rfl

/-! ## The reset line -/

/-- A reset write: the byte on the HI lane drives the line, inverted (R206). -/
theorem exec_sresetWr (sz : Size) (a : Addr) (d : Word) (s : State) :
    exec (.sresetWr sz a d) s =
      (if reachesHi sz a then resetLine (!(hiData sz d).getLsbD 0) s else s).finish .none :=
  congrArg (State.finish · .none) (writeLanes_toHiRegister a sz d _ s)

/-- Settles O28: the edges are the two cases of the line in which its level changes. -/
theorem resetLineActsOnEdgesOnly : Obligations.ResetLineActsOnEdgesOnly := by
  intro s sz a d
  rw [exec_sresetWr]
  by_cases hhi : reachesHi sz a = true
  · rw [if_pos hhi]
    obtain ⟨hb, hr, he⟩ | ⟨hb, hr, he⟩ | ⟨hb, he⟩ := resetLine_cases (!(hiData sz d).getLsbD 0) s
    · have hbit : (hiData sz d).getLsbD 0 = false := by simpa using hb
      rw [he, if_pos ⟨hhi, hbit, hr⟩]
      rfl
    · have hbit : (hiData sz d).getLsbD 0 = true := by simpa using hb
      rw [he, if_neg fun h => Bool.noConfusion (hbit.symm.trans h.2.1), if_pos ⟨hhi, hbit, hr⟩]
      rfl
    · rw [he, if_neg, if_neg]
      · rfl
      · rintro ⟨_, h1, h2⟩
        rw [h1, h2] at hb
        cases hb
      · rintro ⟨_, h1, h2⟩
        rw [h1, h2] at hb
        cases hb
  · rw [if_neg hhi, if_neg fun h => hhi h.1, if_neg fun h => hhi h.1]
    rfl

/-! ## The status byte -/

/-- Settles O29: the read shows the composed byte on the HI lane, and the reset register is all ones. -/
theorem statusByteShowsTheGraceWindow : Obligations.StatusByteShowsTheGraceWindow := by
  intro s sz a clk
  refine ⟨finish_sentinel_eq sz s, statusByte s.session s.arb clk, ?_, fun b hb => statusByte_upper _ _ clk hb,
    statusByte_bit0 s.session s.arb clk⟩
  exact congrArg s.finish (readLanes_hiRegister a sz _)

end Sys2Proof.Machine
end

section
/-! PROOF. The I/O registers (43_io_ports.md): every one sits on the LO lane of its word (30_encoding.md R109). -/

namespace Sys2Proof.Machine

/-! ## The operations by physical port -/

theorem exec_dataRd (p : Fin 3) (sz : Size) (a : Addr) (s : State) :
    exec (dataRd p sz a) s = readRegister sz a (readData p s) s := by fin_cases p <;> rfl

theorem exec_dataWr (p : Fin 3) (sz : Size) (a : Addr) (d : Word) (s : State) :
    exec (dataWr p sz a d) s = writeRegister sz a d (writeData p) s := by fin_cases p <;> rfl

theorem exec_ctrlRd (p : Fin 3) (sz : Size) (a : Addr) (s : State) :
    exec (ctrlRd p sz a) s = readRegister sz a (s.port p).ctrl s := by fin_cases p <;> rfl

theorem exec_ctrlWr (p : Fin 3) (sz : Size) (a : Addr) (d : Word) (s : State) :
    exec (ctrlWr p sz a d) s = writeRegister sz a d (writeCtrl p) s := by fin_cases p <;> rfl

theorem exec_txRd (p : Fin 3) (sz : Size) (a : Addr) (s : State) :
    exec (txRd p sz a) s = readRegister sz a (s.dev (direct p)).serLastTx s := by fin_cases p <;> rfl

theorem exec_txWr (p : Fin 3) (sz : Size) (a : Addr) (d : Word) (s : State) :
    exec (txWr p sz a d) s = writeRegister sz a d (writeSerTx p) s := by fin_cases p <;> rfl

theorem exec_rxRd (p : Fin 3) (sz : Size) (a : Addr) (s : State) :
    exec (rxRd p sz a) s = readRegister sz a 0xFF#8 s := by fin_cases p <;> rfl

theorem exec_rxWr (p : Fin 3) (sz : Size) (a : Addr) (d : Word) (s : State) :
    exec (rxWr p sz a d) s = writeRegister sz a d (fun _ t => t) s := by fin_cases p <;> rfl

theorem exec_sctrlRd (p : Fin 3) (sz : Size) (a : Addr) (s : State) :
    exec (sctrlRd p sz a) s = readRegister sz a (s.dev (direct p)).serCtrl s := by fin_cases p <;> rfl

theorem exec_sctrlWr (p : Fin 3) (sz : Size) (a : Addr) (d : Word) (s : State) :
    exec (sctrlWr p sz a d) s = writeRegister sz a d (writeSerCtrl p) s := by fin_cases p <;> rfl

/-! ## Reads -/

/-- Settles O31: the register's byte is the one composed by direction. -/
theorem dataRegisterReadsByDirection : Obligations.DataRegisterReadsByDirection := fun s p sz a =>
  ⟨readData p s, by rw [exec_dataRd, readRegister_eq], fun _ hb => getLsbD_readData p s hb⟩

/-- Settles O33: each register is read as it stands. -/
theorem plainRegistersReadWhatTheyHold : Obligations.PlainRegistersReadWhatTheyHold := by
  intro s p sz a
  refine ⟨?_, ?_, ?_, ?_, readRegister_eq sz a s.session.version s⟩
  · rw [exec_ctrlRd, readRegister_eq]
  · rw [exec_txRd, readRegister_eq]
  · rw [exec_sctrlRd, readRegister_eq]
  · rw [exec_rxRd, readRegister_eq]

/-! ## Writes -/

theorem writeData_eq (p : Fin 3) (v : Byte) (s : State) :
    writeData p v s = { s with
      ports := s.ports.set p ⟨(s.port p).ctrl, v⟩
      devices := devLines p (Port.lines ⟨(s.port p).ctrl, v⟩) s.devices } := by
  rw [writeData, portUpdate_eq, State.port_setPort, if_pos rfl]
  rfl

theorem writeCtrl_eq (p : Fin 3) (v : Byte) (s : State) :
    writeCtrl p v s = { s with
      ports := s.ports.set p ⟨v, (s.port p).dout⟩
      devices := devLines p (Port.lines ⟨v, (s.port p).dout⟩) s.devices } := by
  rw [writeCtrl, portUpdate_eq, State.port_setPort, if_pos rfl]
  rfl

theorem getLsbD_lowByte (d : Word) {b : Nat} (hb : b < 8) : (d.extractLsb' 0 8).getLsbD b = d.getLsbD b := by
  simp [hb]

/-- Settles O32: the written register is stored and the levels of the port as it then stands are handed on. -/
theorem portWritesDriveTheLines : Obligations.PortWritesDriveTheLines := by
  intro s p sz a d
  refine ⟨Port.lines ⟨(s.port p).ctrl, d.extractLsb' 0 8⟩, Port.lines ⟨d.extractLsb' 0 8, (s.port p).dout⟩,
    fun b hb => ?_, fun b hb => ?_, ?_, ?_⟩
  · rw [getLsbD_lines _ hb, getLsbD_lowByte d hb]
  · rw [getLsbD_lines _ hb, getLsbD_lowByte d hb]
  · rw [exec_dataWr, writeRegister_eq, writeData_eq]
    split <;> rfl
  · rw [exec_ctrlWr, writeRegister_eq, writeCtrl_eq]
    split <;> rfl

/-- The upper five bits of a byte. -/
theorem getLsbD_and_F8 (v : Byte) {b : Nat} (hb : b < 8) :
    (v &&& 0xF8#8).getLsbD b = (decide (3 ≤ b) && v.getLsbD b) := by
  have h : ∀ i : Fin 8, (0xF8#8).getLsbD i.val = decide (3 ≤ i.val) := by decide
  rw [BitVec.getLsbD_and, h ⟨b, hb⟩, Bool.and_comm]

/-- A register write whose byte changes the direct device only: its record, and the frame. -/
theorem exec_deviceWrite {i : Instr} {s : State} {sz : Size} {a : Addr} {d : Word} {w : Byte → State → State}
    {p : Fin 3} {new : Byte → Device} (hi : exec i s = writeRegister sz a d w s)
    (hw : ∀ v, w v s = s.setDev (direct p) (new v)) :
    ∃ t, exec i s = .next t ∧ t = { s with devices := t.devices, result := .none } ∧
      (∀ v, v ≠ direct p → t.dev v = s.dev v) ∧
      t.dev (direct p) = if reachesLo sz a then new (d.extractLsb' 0 8) else s.dev (direct p) := by
  rw [hi, writeRegister_eq, hw]
  cases reachesLo sz a with
  | true =>
    refine ⟨_, rfl, rfl, fun v hv => ?_, ?_⟩
    · exact (s.dev_setDev ..).trans (if_neg hv)
    · exact (s.dev_setDev ..).trans (if_pos rfl)
  | false => exact ⟨_, rfl, rfl, fun _ _ => rfl, rfl⟩

/-- Settles O34: the two serial writes are register writes of one field of the direct device, the two others keep
nothing. -/
theorem serialWritesChangeTheirOwnField : Obligations.SerialWritesChangeTheirOwnField := by
  intro s p sz a d
  refine ⟨?_, ?_, ?_, ?_⟩
  · obtain ⟨t, he, hf, ho, hd⟩ := exec_deviceWrite (p := p) (exec_txWr p sz a d s)
      (new := fun v => { s.dev (direct p) with serLastTx := v }) fun _ => rfl
    refine ⟨t, he, hf, ho, hd.trans ?_⟩
    split <;> rfl
  · obtain ⟨t, he, hf, ho, hd⟩ := exec_deviceWrite (p := p) (exec_sctrlWr p sz a d s)
      (new := fun v => { s.dev (direct p) with serCtrl := v &&& 0xF8#8 }) fun _ => rfl
    refine ⟨t, he, hf, ho, ?_, fun b hb => ?_⟩ <;> rw [hd]
    · split <;> rfl
    · split
      · exact (getLsbD_and_F8 _ hb).trans (by rw [getLsbD_lowByte d hb])
      · rfl
  · rw [exec_rxWr, writeRegister_eq, ite_self]
  · exact (writeRegister_eq ..).trans (by rw [ite_self])

end Sys2Proof.Machine
end

section
/-! PROOF. The controller devices (44_io_devices.md): where new line levels go, how each type reacts to them, and the byte
each type shows. -/

namespace Sys2Proof.Machine

/-! ## Where the levels go -/

/-- The record that answers after new levels: under a tap the member it then selects (R286). -/
theorem active_devLines (p : Fin 3) (new : Byte) (ds : Vector Device 15) :
    active (devLines p new ds) p =
      if ds[direct p].type = .tap then member p (tapSelect new ds[direct p]).counter else direct p := by
  have hd := getElem_devLines p new ds (direct p)
  rw [active, (devLines_frame p new ds (direct p)).1]
  split
  · next h => rw [hd, if_pos h, if_pos rfl]
  · rfl

theorem plainLines_lastLines (new : Byte) (d : Device) : (plainLines new d).lastLines = new :=
  (plainLines_frame new d).2.2.2.2

/-- Settles O35: of the records only the direct device and the one that then answers see the levels. -/
theorem linesReachOnlyTheAddressedDevices : Obligations.LinesReachOnlyTheAddressedDevices := by
  intro ds p new v
  obtain ⟨h1, h2, h3, h4⟩ := devLines_frame p new ds v
  refine ⟨h1, h2, h3, h4, ?_⟩
  rw [active_devLines, getElem_devLines]
  refine ⟨?_, ?_, ?_⟩
  · split
    · rintro (hv | hv)
      · rw [if_pos hv]
        rfl
      · have hne : v ≠ direct p := fun e => member_ne_direct p _ p (hv.symm.trans e)
        rw [if_neg hne, if_pos hv]
        exact plainLines_lastLines new ds[v]
    · rintro (hv | hv) <;> rw [if_pos hv] <;> exact plainLines_lastLines new ds[direct p]
  · split
    · intro hd hm
      rw [if_neg hd, if_neg hm]
    · intro hd _
      rw [if_neg hd]
  · rintro rfl hne
    rw [if_neg hne, if_pos rfl]

/-! ## The same levels again -/

theorem vector_ext_fin {α : Type} {n : Nat} {xs ys : Vector α n} (h : ∀ i : Fin n, xs[i] = ys[i]) : xs = ys :=
  Vector.ext fun i hi => h ⟨i, hi⟩

theorem fell_self (x : Byte) (b : Nat) : fell x x b = false := Bool.and_not_self _

theorem rose_self (x : Byte) (b : Nat) : rose x x b = false := Bool.not_and_self _

/-- A device that receives the levels it last received is left as it is (R273). -/
theorem plainLines_of_same {d : Device} {new : Byte} (h : d.lastLines = new) : plainLines new d = d := by
  subst h
  simp only [plainLines, fell_self, rose_self]
  split <;> rfl

theorem tapSelect_of_same {d : Device} {new : Byte} (h : d.lastLines = new) : tapSelect new d = d := by
  subst h
  simp only [tapSelect, fell_self, Bool.false_eq_true, if_false]

/-- Settles O36: each record the levels reached has them as its last, so that none of them reacts again. -/
theorem sameLinesTwiceIsNoEdge : Obligations.SameLinesTwiceIsNoEdge := by
  intro ds p new
  have hlast := fun v : Fin 15 => (linesReachOnlyTheAddressedDevices ds p new v).2.2.2.2.1
  have hact := active_devLines p new ds
  have hdir := hlast (direct p) (.inl rfl)
  have htype := (devLines_frame p new ds (direct p)).1
  refine vector_ext_fin fun v => ?_
  rw [getElem_devLines, htype]
  by_cases ht : ds[direct p].type = .tap
  · rw [if_pos ht] at hact ⊢
    have hsel : (devLines p new ds)[direct p] = tapSelect new ds[direct p] := by
      rw [getElem_devLines, if_pos ht, if_pos rfl]
    rw [tapSelect_of_same hdir]
    split
    · next hv => rw [hv]
    · split
      · next hv => exact plainLines_of_same (hlast v (.inr (by rw [hv, hsel, hact])))
      · rfl
  · rw [if_neg ht]
    split
    · next hv => rw [hv, plainLines_of_same hdir]
    · rfl

/-! ## The 6-button pad -/

theorem plainLines_pad6 {d : Device} (h : d.type = .pad6) (new : Byte) : plainLines new d =
    pad6Edge (fell d.lastLines new 6) (rose d.lastLines new 6) { d with lastLines := new } := by
  simp only [plainLines, h]

/-- Settles O38: the four cases of the TH level before and after. -/
theorem sixButtonPadStepsOnTheRisingEdge : Obligations.SixButtonPadStepsOnTheRisingEdge := by
  intro d new ht hc
  rw [plainLines_pad6 ht, fell, rose]
  cases d.lastLines.getLsbD 6 <;> cases new.getLsbD 6
  · exact ⟨d.counter, rfl, rfl⟩
  · refine ⟨BitVec.ofNat 4 ((d.counter.toNat + 1) % 4), rfl, ?_⟩
    rw [if_pos ⟨rfl, rfl⟩, BitVec.toNat_ofNat]
    omega
  · exact ⟨d.counter, rfl, rfl⟩
  · exact ⟨d.counter, rfl, rfl⟩

/-! ## The mouse -/

theorem plainLines_mouse {d : Device} (h : d.type = .mouse) (new : Byte) : plainLines new d =
    mouseEdge (fell d.lastLines new 6) (rose d.lastLines new 6) { d with lastLines := new } := by
  simp only [plainLines, h]

/-- A line fell or rose when its level changed (R273). -/
theorem fell_or_rose (old new : Byte) (b : Nat) :
    (fell old new b || rose old new b) = (old.getLsbD b != new.getLsbD b) := by
  unfold fell rose
  cases old.getLsbD b <;> cases new.getLsbD b <;> rfl

/-- The next phase of a mouse in mid-handshake (R282). -/
theorem next_phase (c : BitVec 4) (hc : c.toNat ≤ 9) :
    (if c = 9#4 then 0#4 else c + 1#4) = BitVec.ofNat 4 ((c.toNat + 1) % 10) := by
  revert hc
  revert c
  decide

/-- Settles O39: a mouse reacts to an edge only, idle to a falling one only. -/
theorem mouseStepsOnEveryEdge : Obligations.MouseStepsOnEveryEdge := by
  intro d new ht hc
  rw [plainLines_mouse ht, mouseEdge, fell_or_rose]
  refine ⟨fun he => ?_, fun he h0 => ?_, fun h0 hl => ?_⟩
  · rw [he, bne_self_eq_false]
    rfl
  · rw [if_pos (bne_iff_ne.mpr he), if_neg h0, next_phase d.counter hc]
  · rw [if_pos h0, fell, hl, Bool.false_and, if_neg Bool.false_ne_true, ite_self]

/-- The clipped value and its overflow (R283). -/
theorem clip_eq (r : Int) : clip r = (max (-255) (min 255 r), decide (255 < r ∨ r < -255)) := by
  unfold clip
  split
  · next h => rw [decide_eq_true (.inl h)]; congr 1; omega
  · split
    · next h => rw [decide_eq_true (.inr h)]; congr 1; omega
    · rw [decide_eq_false (by omega)]; congr 1; omega

/-- A 9-bit two's-complement value from its low byte and its sign. -/
theorem toNat_ofInt_sub_sign {x : Int} (h1 : -255 ≤ x) (h2 : x ≤ 255) :
    ((BitVec.ofInt 8 x).toNat : Int) - (if decide (x < 0) then 256 else 0) = x := by
  rw [BitVec.toNat_ofInt]
  by_cases h : x < 0
  · rw [decide_eq_true h, if_pos rfl]; omega
  · rw [decide_eq_false h, if_neg Bool.noConfusion]; omega

/-- The four flags, each at its bit. -/
theorem getLsbD_flags (a b c e : Bool) :
    ((BitVec.ofBool a ++ BitVec.ofBool b ++ BitVec.ofBool c ++ BitVec.ofBool e : BitVec 4).getLsbD 0 = e) ∧
    ((BitVec.ofBool a ++ BitVec.ofBool b ++ BitVec.ofBool c ++ BitVec.ofBool e : BitVec 4).getLsbD 1 = c) ∧
    ((BitVec.ofBool a ++ BitVec.ofBool b ++ BitVec.ofBool c ++ BitVec.ofBool e : BitVec 4).getLsbD 2 = b) ∧
    ((BitVec.ofBool a ++ BitVec.ofBool b ++ BitVec.ofBool c ++ BitVec.ofBool e : BitVec 4).getLsbD 3 = a) := by
  revert a b c e
  decide

/-- Settles O40: the edge samples both accumulators; each latch and sign is the clipped value in nine bits. -/
theorem mouseSamplesItsMotionAtTheStart : Obligations.MouseSamplesItsMotionAtTheStart := by
  intro d new ht h0 ho hn
  have hfall : fell d.lastLines new 6 = true := by rw [fell, ho, hn]; rfl
  obtain ⟨f0, f1, f2, f3⟩ := getLsbD_flags (clip d.relY.toInt).2 (clip d.relX.toInt).2
    (decide ((clip d.relY.toInt).1 < 0)) (decide ((clip d.relX.toInt).1 < 0))
  rw [plainLines_mouse ht, mouseEdge, hfall, Bool.true_or, if_pos rfl, if_pos h0, if_pos rfl]
  refine ⟨_, _, _, rfl, ?_, ?_, (Eq.to_iff (congrArg (· = true) f2)).trans ?_,
    (Eq.to_iff (congrArg (· = true) f3)).trans ?_⟩
  · exact (congrArg (fun b : Bool => ((BitVec.ofInt 8 (clip d.relX.toInt).1).toNat : Int) - if b then 256 else 0)
      f0).trans (by rw [clip_eq]; exact toNat_ofInt_sub_sign (by omega) (by omega))
  · exact (congrArg (fun b : Bool => ((BitVec.ofInt 8 (clip d.relY.toInt).1).toNat : Int) - if b then 256 else 0)
      f1).trans (by rw [clip_eq]; exact toNat_ofInt_sub_sign (by omega) (by omega))
  · rw [clip_eq]
    exact decide_eq_true_iff
  · rw [clip_eq]
    exact decide_eq_true_iff

/-! ## The tap -/

/-- The member a tap selects (R286). -/
theorem tapSelect_counter (d : Device) (new : Byte) :
    (tapSelect new d).counter = BitVec.ofNat 4
      (if d.lastLines.getLsbD 4 = true ∧ new.getLsbD 4 = false then 0
      else if d.lastLines.getLsbD 5 = true ∧ new.getLsbD 5 = false then (d.counter.toNat + 1) % 4
      else d.counter.toNat) := by
  have hfell : ∀ b, fell d.lastLines new b = true ↔ d.lastLines.getLsbD b = true ∧ new.getLsbD b = false := fun b => by
    simp [fell]
  simp only [tapSelect, hfell]
  split
  · rfl
  · split
    · rfl
    · exact (BitVec.ofNat_toNat 4 d.counter).symm

/-- Settles O41: the tap's own half gives the member, and the levels go on to its record. -/
theorem tapSelectsByTheTwoSpareLines : Obligations.TapSelectsByTheTwoSpareLines := by
  intro ds p new ht hc m
  have hm : m ≤ 3 := by
    change (if _ then 0 else if _ then (ds[direct p].counter.toNat + 1) % 4 else ds[direct p].counter.toNat) ≤ 3
    split
    · exact Nat.zero_le _
    · split
      · exact Nat.le_of_lt_succ (Nat.mod_lt _ (by decide))
      · exact hc
  have hsel : (tapSelect new ds[direct p]).counter = BitVec.ofNat 4 m := tapSelect_counter ds[direct p] new
  have hact : active (devLines p new ds) p = member p (BitVec.ofNat 4 m) := by
    rw [active_devLines, if_pos ht, hsel]
  have hmem : (devLines p new ds)[member p (BitVec.ofNat 4 m)] = plainLines new ds[member p (BitVec.ofNat 4 m)] := by
    rw [getElem_devLines, if_pos ht, if_neg (member_ne_direct p _ p), hsel, if_pos rfl]
  refine ⟨member p (BitVec.ofNat 4 m), ?_, hact, ?_, hmem, ?_⟩
  · rw [member_val, BitVec.toNat_ofNat]
    omega
  · rw [getElem_devLines, if_pos ht, if_pos rfl, tapSelect_frame, hsel]
  · exact congrArg plainData ((congrArg (fun v : Fin 15 => (devLines p new ds)[v]) hact).trans hmem)

/-! ## The bytes the devices show -/

/-- Button bits at the bottom of a byte. -/
theorem getLsbD_buttonBits (d : Device) (lo n : Nat) {b : Nat} (hb : b < 8) :
    (d.buttonBits lo n).getLsbD b = (decide (b < n) && d.buttons.getLsbD (lo + b)) := by
  simp [Device.buttonBits, BitVec.getLsbD_extractLsb', hb]

/-- TH stands in bit 6 (R272). -/
theorem getLsbD_thBit (d : Device) (b : Fin 8) : d.thBit.getLsbD b.val = (decide (b.val = 6) && d.lastLines.getLsbD 6) := by
  unfold Device.thBit Device.th
  cases d.lastLines.getLsbD 6 <;> revert b <;> decide

/-- Bits of the 2-button pad's byte (R275). -/
theorem getLsbD_pad2Data (d : Device) {b : Nat} (hb : b < 8) : (pad2Data d).getLsbD b =
    if b = 7 then true else if b = 6 then d.lastLines.getLsbD 6 else d.buttons.getLsbD b := by
  have hth := getLsbD_thBit d ⟨b, hb⟩
  rw [pad2Data, BitVec.getLsbD_or, BitVec.getLsbD_or, getLsbD_buttonBits d 0 6 hb, hth]
  interval_cases b <;> simp

/-- Start and A stand in bits 5 and 4 (R277, R279). -/
theorem getLsbD_startA (d : Device) {b : Nat} (hb : b < 8) :
    d.startA.getLsbD b = (decide (b = 5 ∨ b = 4) && d.buttons.getLsbD (b + 2)) := by
  rw [Device.startA, BitVec.getLsbD_shiftLeft, getLsbD_buttonBits d 6 2 (by omega)]
  interval_cases b <;> simp

/-- Bits of the high row, which the 3-button pad and the 6-button pad share (R277, R279). -/
theorem getLsbD_highRow (d : Device) {b : Nat} (hb : b < 8) : (0xC0#8 ||| d.buttonBits 0 6).getLsbD b =
    if b = 7 then true else if b = 6 then true else d.buttons.getLsbD b := by
  rw [BitVec.getLsbD_or, getLsbD_buttonBits d 0 6 hb]
  interval_cases b <;> simp

/-- Bits of the low row that the two pads share (R277, R279). -/
theorem getLsbD_lowRow (d : Device) {b : Nat} (hb : b < 8) :
    (0x80#8 ||| d.startA ||| d.buttonBits 0 2).getLsbD b =
      if b = 7 then true else if b = 6 then false else if 4 ≤ b then d.buttons.getLsbD (b + 2)
      else if 2 ≤ b then false else d.buttons.getLsbD b := by
  rw [BitVec.getLsbD_or, BitVec.getLsbD_or, getLsbD_startA d hb, getLsbD_buttonBits d 0 2 hb]
  interval_cases b <;> simp

/-- Bits of a low row whose low nibble is fixed: the 6-button pad's in phases 2 and 3 (R279). -/
theorem getLsbD_fixedRow (d : Device) (ones : Bool) {b : Nat} (hb : b < 8) :
    (0x80#8 ||| d.startA ||| if ones then 0x0F#8 else 0x00#8).getLsbD b =
      if b = 7 then true else if b = 6 then false else if 4 ≤ b then d.buttons.getLsbD (b + 2) else ones := by
  rw [BitVec.getLsbD_or, BitVec.getLsbD_or, getLsbD_startA d hb]
  cases ones <;> interval_cases b <;> simp

/-- Bits of the extra row (R279). -/
theorem getLsbD_extraRow (d : Device) {b : Nat} (hb : b < 8) :
    (0xC0#8 ||| (d.buttonBits 4 2 <<< 4) ||| d.buttonBits 8 4).getLsbD b =
      if b = 7 then true else if b = 6 then true else if b < 4 then d.buttons.getLsbD (8 + b)
      else d.buttons.getLsbD b := by
  rw [BitVec.getLsbD_or, BitVec.getLsbD_or, BitVec.getLsbD_shiftLeft, getLsbD_buttonBits d 4 2 (by omega),
    getLsbD_buttonBits d 8 4 hb]
  interval_cases b <;> simp

/-- Bits of the 3-button pad's byte: the row of its TH level (R277). -/
theorem getLsbD_pad3Data (d : Device) {b : Nat} (hb : b < 8) : (pad3Data d).getLsbD b =
    if b = 7 then true else if b = 6 then d.lastLines.getLsbD 6
    else if d.lastLines.getLsbD 6 then d.buttons.getLsbD b
    else if 4 ≤ b then d.buttons.getLsbD (b + 2) else if 2 ≤ b then false else d.buttons.getLsbD b := by
  unfold pad3Data Device.th
  cases d.lastLines.getLsbD 6 with
  | true => exact getLsbD_highRow d hb
  | false => exact getLsbD_lowRow d hb

/-- Settles O42: NONE shows a constant, and the pads the bits of their rows. -/
theorem padRowsShowTheButtons : Obligations.PadRowsShowTheButtons := by
  intro d b hb
  refine ⟨fun ht => ?_, fun ht => ?_, fun ht => ?_⟩ <;> simp only [plainData, ht]
  · revert b
    decide
  · exact getLsbD_pad2Data d hb
  · rw [getLsbD_pad3Data d hb]
    interval_cases b <;> simp

/-- Bits of the 6-button pad's byte: each phase and level names one row (R279). -/
theorem getLsbD_pad6Data (d : Device) {b : Nat} (hb : b < 8) : (pad6Data d).getLsbD b =
    if b = 7 then true else if b = 6 then d.lastLines.getLsbD 6
    else if d.lastLines.getLsbD 6 then
      if d.counter = 3#4 ∧ b < 4 then d.buttons.getLsbD (8 + b) else d.buttons.getLsbD b
    else if 4 ≤ b then d.buttons.getLsbD (b + 2)
    else if d.counter = 3#4 then true else if d.counter = 2#4 then false
    else if 2 ≤ b then false else d.buttons.getLsbD b := by
  unfold pad6Data Device.th
  cases d.lastLines.getLsbD 6 with
  | true =>
    rw [if_pos rfl, if_pos rfl]
    by_cases h3 : d.counter = 3#4
    · rw [if_pos h3, getLsbD_extraRow d hb]
      simp [h3]
    · rw [if_neg h3, getLsbD_highRow d hb]
      simp [h3]
  | false =>
    rw [if_neg Bool.false_ne_true, if_neg Bool.false_ne_true]
    by_cases h3 : d.counter = 3#4
    · rw [if_pos h3, if_pos h3]
      exact getLsbD_fixedRow d true hb
    · rw [if_neg h3, if_neg h3]
      by_cases h2 : d.counter = 2#4
      · rw [if_pos h2, if_pos h2, ← BitVec.or_zero (x := 0x80#8 ||| d.startA)]
        exact getLsbD_fixedRow d false hb
      · rw [if_neg h2, if_neg h2]
        exact getLsbD_lowRow d hb

/-- Settles O43: the bits of the pad's byte. -/
theorem sixButtonRowsShowTheExtraNibbleInPhaseThree : Obligations.SixButtonRowsShowTheExtraNibbleInPhaseThree := by
  intro d b hb ht _
  simp only [plainData, ht]
  exact getLsbD_pad6Data d hb

/-- The mouse's byte as a sum: its parts share no bit (R281). -/
theorem toNat_mouseByte (th idle : Bool) (n : BitVec 4) :
    (0x80#8 ||| (if th then 0x40#8 else 0x00#8) ||| 0x20#8 ||| (if idle then 0x10#8 else 0x00#8) |||
      n.setWidth 8).toNat =
      0xA0 + (if th then 0x40 else 0) + (if idle then 0x10 else 0) + n.toNat := by
  revert th idle n
  decide

theorem toNat_mouseData (d : Device) : (mouseData d).toNat =
    0xA0 + (if d.lastLines.getLsbD 6 then 0x40 else 0) + (if d.counter = 0#4 then 0x10 else 0) +
      (mouseNibble d).toNat := by
  have h := toNat_mouseByte d.th (decide (d.counter = 0#4)) (mouseNibble d)
  simp only [decide_eq_true_eq] at h
  exact h

theorem toNat_highNibble (x : Byte) : (x.extractLsb' 4 4).toNat = x.toNat / 16 := by
  have := x.isLt
  rw [toNat_field]
  omega

theorem toNat_lowNibble {w : Nat} (x : BitVec w) : (x.extractLsb' 0 4).toNat = x.toNat % 16 := by
  rw [toNat_field, Nat.pow_zero, Nat.div_one]
  rfl

/-- The nibble of each phase as a number (R281). -/
theorem toNat_mouseNibble (d : Device) : (mouseNibble d).toNat =
    match d.counter.toNat with
    | 0 => 0 | 1 => 0xB | 2 => 0xF | 3 => 0xF
    | 4 => d.latFlags.toNat
    | 5 => d.buttons.toNat % 16
    | 6 => d.latX.toNat / 16
    | 7 => d.latX.toNat % 16
    | 8 => d.latY.toNat / 16
    | _ => d.latY.toNat % 16 := by
  unfold mouseNibble
  generalize d.counter.toNat = c
  match c with
  | 0 | 1 | 2 | 3 | 4 => rfl
  | 5 | 7 => exact toNat_lowNibble _
  | 6 | 8 => exact toNat_highNibble _
  | _ + 9 => exact toNat_lowNibble _

/-- Settles O44: the byte is a sum of TH, idleness and the phase's nibble. -/
theorem mouseShowsOneNibbleAPhase : Obligations.MouseShowsOneNibbleAPhase := by
  intro d ht _
  have hd : plainData d = mouseData d := by simp only [plainData, ht]
  rw [hd, toNat_mouseData]
  exact congrArg (_ + ·) (toNat_mouseNibble d)

end Sys2Proof.Machine
end

section
/-! PROOF. Lists of operations that act on the devices: the scanline ticks (44_io_devices.md R290) and the handshakes at
the data registers (R292). -/

namespace Sys2Proof.Machine

theorem performAll_append (is js : List Instr) (s : State) :
    performAll (is ++ js) s =
      match performAll is s with
      | .next t => performAll js t
      | r => r := by
  induction is generalizing s with
  | nil => rfl
  | cons i is ih =>
    rw [List.cons_append, performAll, performAll]
    cases exec i s with
    | next t => exact ih t
    | _ => rfl

/-- A list that completes hands its state to what follows. -/
theorem performAll_append_of_next {is : List Instr} {s t : State} (h : performAll is s = .next t) (js : List Instr) :
    performAll (is ++ js) s = performAll js t := by
  rw [performAll_append, h]

/-! ## Scanline ticks -/

theorem ticks_of_ne_pad6 {d : Device} (h : d.type ≠ .pad6) (n : Nat) : tick^[n] d = d :=
  Function.iterate_fixed (show tick d = d from if_neg h) n

/-- Below the limit a 6-button pad counts (R290). -/
theorem ticks_of_lt {n : Nat} {d : Device} (h : d.type = .pad6) (hn : d.scanlines.toNat + n < 25) :
    tick^[n] d = { d with scanlines := BitVec.ofNat 5 (d.scanlines.toNat + n) } := by
  induction n with
  | zero => rw [Nat.add_zero, BitVec.ofNat_toNat, BitVec.setWidth_eq]; rfl
  | succ n ih =>
    have hc : (BitVec.ofNat 5 (d.scanlines.toNat + n)).toNat = d.scanlines.toNat + n :=
      (BitVec.toNat_ofNat ..).trans (Nat.mod_eq_of_lt (by omega))
    have hs : BitVec.ofNat 5 (d.scanlines.toNat + n) + 1#5 = BitVec.ofNat 5 (d.scanlines.toNat + (n + 1)) :=
      (BitVec.ofNat_add _ _).symm
    rw [Function.iterate_succ_apply', ih (by omega), tick, if_pos h, if_neg (by rw [hc]; exact Nat.ne_of_lt hn), hs]

/-- At the limit it returns to phase 0 (R291). -/
theorem ticks_of_eq {n : Nat} {d : Device} (h : d.type = .pad6) (hn : d.scanlines.toNat + (n + 1) = 25) :
    tick^[n + 1] d = { d with counter := 0#4, scanlines := 0#5 } := by
  have hc : (BitVec.ofNat 5 (d.scanlines.toNat + n)).toNat = d.scanlines.toNat + n :=
    (BitVec.toNat_ofNat ..).trans (Nat.mod_eq_of_lt (by omega))
  rw [Function.iterate_succ_apply', ticks_of_lt h (by omega), tick, if_pos h, if_pos (by rw [hc]; exact hn)]

theorem exec_scanline (s : State) :
    exec .scanline s = .next { s with devices := Vector.ofFn fun v => tick s.devices[v], result := .done } := rfl

/-- A list of SCANLINE calls ticks every record. -/
theorem performAll_scanlines (n : Nat) (s : State) :
    ∃ t, performAll (List.replicate (n + 1) .scanline) s = .next t ∧
      t = { s with devices := t.devices, result := .done } ∧ ∀ v, t.dev v = tick^[n + 1] (s.dev v) := by
  have hd (v : Fin 15) : (Vector.ofFn fun v : Fin 15 => tick s.devices[v])[v] = tick (s.dev v) := getElem_ofFn_fin _ v
  rw [List.replicate_succ, performAll_cons (exec_scanline s)]
  induction n generalizing s with
  | zero => exact ⟨_, rfl, rfl, hd⟩
  | succ n ih =>
    have hs := exec_scanline { s with devices := Vector.ofFn fun v => tick s.devices[v], result := .done }
    obtain ⟨t, he, hf, ht⟩ := ih { s with devices := Vector.ofFn fun v => tick s.devices[v], result := .done }
      fun v => getElem_ofFn_fin _ v
    rw [List.replicate_succ, performAll_cons hs]
    refine ⟨t, he, hf, fun v => (ht v).trans ?_⟩
    rw [Function.iterate_succ_apply, Function.iterate_succ_apply]
    exact congrArg (fun d => tick^[n] (tick d)) (hd v)

/-- Settles O45: the calls tick every record, and a record's ticks count up to the limit. -/
theorem sixButtonPadTimesOutOnThe25thTick : Obligations.SixButtonPadTimesOutOnThe25thTick := by
  refine ⟨rfl, fun s n => ?_⟩
  obtain ⟨t, he, hf, hd⟩ := performAll_scanlines n s
  refine ⟨t, he, hf, fun v => ⟨fun h => ?_, fun h hn => ?_, fun h hn => ?_⟩⟩ <;> rw [hd v]
  · exact ticks_of_ne_pad6 h _
  · exact ticks_of_lt h hn
  · exact ticks_of_eq h hn

end Sys2Proof.Machine
end

section
/-! PROOF. The handshakes at the data registers (44_io_devices.md R292): a read follows each level of TH. -/

namespace Sys2Proof.Machine

/-- The word that sets the level of TH before read `k + 1`. -/
def thWord (k : Nat) : Word := if k % 2 = 0 then 0xFF#16 else 0xBF#16

theorem handshake_succ (p : Fin 3) (n : Nat) : handshake p (n + 1) =
    handshake p n ++ [dataWr p .byte (dataAddr p) (thWord n), dataRd p .byte (dataAddr p)] := by
  rw [handshake, List.range_succ, List.flatMap_append, List.flatMap_singleton]
  rfl

theorem getLsbD_thWord (k : Nat) : (thWord k).getLsbD 6 = decide (k % 2 = 0) := by
  unfold thWord
  split
  · next h => rw [decide_eq_true h]; rfl
  · next h => rw [decide_eq_false h]; rfl

theorem reachesLo_dataAddr (p : Fin 3) : reachesLo .byte (dataAddr p) = true := by fin_cases p <;> rfl

theorem shownLo_dataAddr (p : Fin 3) (r : Byte) : shownLo .byte (dataAddr p) r = .byte r := by fin_cases p <;> rfl

theorem exec_dataWr_dataAddr (p : Fin 3) (x : Word) (s : State) :
    exec (dataWr p .byte (dataAddr p) x) s = .next { writeData p (x.extractLsb' 0 8) s with result := .none } := by
  rw [exec_dataWr, writeRegister_eq, if_pos (reachesLo_dataAddr p)]

theorem exec_dataRd_dataAddr (p : Fin 3) (s : State) :
    exec (dataRd p .byte (dataAddr p)) s = .next { s with result := .byte (readData p s) } := by
  rw [exec_dataRd, readRegister_eq, shownLo_dataAddr]

/-- What one read of a handshake leaves: the direct device has seen the level of TH, and only TH is not its own bit. -/
structure AfterRead (p : Fin 3) (x : Word) (d : Device) (t : State) : Prop where
  ctrl : (t.port p).ctrl = 0x40#8
  dev : ∃ new : Byte, new.getLsbD 6 = x.getLsbD 6 ∧ t.dev (direct p) = plainLines new d
  shown : ∃ r, t.result = .byte r ∧
    ∀ b, b < 8 → r.getLsbD b = if b = 6 then x.getLsbD 6 else (plainData (t.dev (direct p))).getLsbD b

/-- With only TH an output, a write and a read of the data register are one read of the handshake. -/
theorem performAll_thRead {p : Fin 3} {s : State} (hc : (s.port p).ctrl = 0x40#8)
    (ht : (s.dev (direct p)).type ≠ .tap) (x : Word) :
    ∃ t, performAll [dataWr p .byte (dataAddr p) x, dataRd p .byte (dataAddr p)] s = .next t ∧
      AfterRead p x (s.dev (direct p)) t := by
  have hw := writeData_eq p (x.extractLsb' 0 8) s
  rw [hc] at hw
  have hwr := exec_dataWr_dataAddr p x s
  rw [hw, devLines_of_not_tap ht] at hwr
  generalize hnew : Port.lines ⟨0x40#8, x.extractLsb' 0 8⟩ = new at hwr
  have h6 : new.getLsbD 6 = x.getLsbD 6 := by
    rw [← hnew, getLsbD_lines _ (by decide), ← getLsbD_lowByte x (by decide)]
    exact if_pos (show (0x40#8).getLsbD 6 = true by decide)
  generalize hu : ({ s with
    ports := s.ports.set p ⟨0x40#8, x.extractLsb' 0 8⟩
    devices := s.devices.set (direct p) (plainLines new s.devices[direct p])
    result := .none } : State) = u at hwr
  have hport : u.port p = ⟨0x40#8, x.extractLsb' 0 8⟩ := by
    rw [← hu]
    exact (getElem_set_fin ..).trans (if_pos rfl)
  have hdev : u.dev (direct p) = plainLines new (s.dev (direct p)) := by
    rw [← hu]
    exact (getElem_set_fin ..).trans (if_pos rfl)
  have hact : devData u.devices p = plainData (u.dev (direct p)) := by
    have hty : (u.dev (direct p)).type ≠ .tap := by rw [hdev, (plainLines_frame new _).1]; exact ht
    have ha : active u.devices p = direct p := if_neg hty
    exact congrArg (fun v => plainData (u.dev v)) ha
  refine ⟨{ u with result := .byte (readData p u) }, ?_, congrArg Port.ctrl hport, ⟨new, h6, hdev⟩, _, rfl,
    fun b hb => ?_⟩
  · rw [performAll_cons hwr, performAll_singleton, exec_dataRd_dataAddr]
  · rw [getLsbD_readData p u hb, hport, hact]
    have hm : ∀ i : Fin 8, (0x40#8).getLsbD i.val = decide (i.val = 6) := by decide
    rw [hm ⟨b, hb⟩]
    by_cases h : b = 6
    · subst h
      exact getLsbD_lowByte x (by decide)
    · simp only [h, decide_false, Bool.false_eq_true, if_false]
      rfl

/-- A handshake with a device that is no tap: what each level of TH keeps of the record holds after every read, and the
last read shows the record's byte with TH on bit 6. -/
theorem performAll_handshake {p : Fin 3} {s : State} {P : Nat → Device → Prop} (hc : (s.port p).ctrl = 0x40#8)
    (h0 : P 0 (s.dev (direct p))) (htap : ∀ {k d}, P k d → d.type ≠ .tap)
    (hstep : ∀ {k d new}, P k d → new.getLsbD 6 = decide (k % 2 = 0) → P (k + 1) (plainLines new d)) (n : Nat) :
    ∃ t, performAll (handshake p n) s = .next t ∧ (t.port p).ctrl = 0x40#8 ∧ P n (t.dev (direct p)) ∧
      (t.dev (direct p)).buttons = (s.dev (direct p)).buttons ∧
      (1 ≤ n → ∃ r, t.result = .byte r ∧ ∀ b, b < 8 →
        r.getLsbD b = if b = 6 then decide (n % 2 = 1) else (plainData (t.dev (direct p))).getLsbD b) := by
  induction n with
  | zero => exact ⟨s, rfl, hc, h0, rfl, fun h => absurd h (by decide)⟩
  | succ n ih =>
    obtain ⟨t, he, htc, hP, hb, -⟩ := ih
    obtain ⟨u, hu, huc, ⟨new, h6, hd⟩, r, hr, hbits⟩ := performAll_thRead htc (htap hP) (thWord n)
    rw [getLsbD_thWord] at h6 hbits
    refine ⟨u, ?_, huc, ?_, ?_, fun _ => ⟨r, hr, fun b hb => (hbits b hb).trans ?_⟩⟩
    · rw [handshake_succ, performAll_append_of_next he, hu]
    · rw [hd]
      exact hstep hP h6
    · rw [hd, (plainLines_frame new _).2.1, hb]
    · rw [decide_eq_decide.mpr (show n % 2 = 0 ↔ (n + 1) % 2 = 1 by omega)]

/-! ## The pads -/

theorem eq_direct {p : Fin 3} {v : Fin 15} (h : v.val = p.val) : v = direct p := Fin.ext h

/-- A 3-button pad before the first read and after read `k`. -/
def Pad3At (k : Nat) (d : Device) : Prop :=
  d.type = .pad3 ∧ (1 ≤ k → d.lastLines.getLsbD 6 = decide (k % 2 = 1))

theorem Pad3At.step {k : Nat} {d : Device} {new : Byte} (h : Pad3At k d) (hn : new.getLsbD 6 = decide (k % 2 = 0)) :
    Pad3At (k + 1) (plainLines new d) := by
  refine ⟨(plainLines_frame new d).1.trans h.1, fun _ => ?_⟩
  rw [plainLines_lastLines, hn]
  exact decide_eq_decide.mpr (by omega)

/-- Settles O46: after each read the pad has seen that read's level of TH, and its byte is that level's row. -/
theorem threeButtonHandshakeRecoversTheButtons : Obligations.ThreeButtonHandshakeRecoversTheButtons := by
  intro s p v n hv ht hc hn
  obtain rfl := eq_direct hv
  obtain ⟨t, he, -, ⟨hty, hth⟩, hb, hr⟩ := performAll_handshake (P := Pad3At) hc
    ⟨ht, fun h => absurd h (by decide)⟩ (fun h => by rw [h.1]; decide) Pad3At.step n
  obtain ⟨r, hres, hbits⟩ := hr hn
  have hdata : plainData (t.dev (direct p)) = pad3Data (t.dev (direct p)) := by simp only [plainData, hty]
  refine ⟨t, r, he, hres, hb, fun b h8 => ?_⟩
  rw [hbits b h8, hdata, getLsbD_pad3Data _ h8, hth hn, hb]
  by_cases h6 : b = 6
  · simp [h6]
  · simp only [h6, if_false, decide_eq_true_eq]

/-- A 6-button pad before the first read and after read `k`: its phase has stepped at every odd read but the first. -/
def Pad6At (k : Nat) (d : Device) : Prop :=
  d.type = .pad6 ∧ d.lastLines.getLsbD 6 = decide (k = 0 ∨ k % 2 = 1) ∧ d.counter.toNat = (k - 1) / 2 % 4

theorem Pad6At.step {k : Nat} {d : Device} {new : Byte} (h : Pad6At k d) (hn : new.getLsbD 6 = decide (k % 2 = 0)) :
    Pad6At (k + 1) (plainLines new d) := by
  obtain ⟨ht, hl, hk⟩ := h
  obtain ⟨c, hd, hc⟩ := sixButtonPadStepsOnTheRisingEdge d new ht (by omega)
  simp only [hl, hn, decide_eq_false_iff_not, decide_eq_true_eq, hk] at hc
  rw [hd]
  refine ⟨ht, hn.trans (decide_eq_decide.mpr (by omega)), hc.trans ?_⟩
  split <;> omega

/-- Settles O47: each read's level of TH and phase name the row it shows. -/
theorem sixButtonHandshakeRecoversTheExtraButtons : Obligations.SixButtonHandshakeRecoversTheExtraButtons := by
  intro s p v n hv ht h0 hl hc hn h9
  obtain rfl := eq_direct hv
  obtain ⟨t, he, -, ⟨hty, hth, hph⟩, hb, hr⟩ := performAll_handshake (P := Pad6At) hc
    ⟨ht, hl, congrArg BitVec.toNat h0⟩ (fun h => by rw [h.1]; decide) Pad6At.step n
  obtain ⟨r, hres, hbits⟩ := hr hn
  have hdata : plainData (t.dev (direct p)) = pad6Data (t.dev (direct p)) := by simp only [plainData, hty]
  have h3 : (t.dev (direct p)).counter = 3#4 ↔ n = 7 ∨ n = 8 := by
    rw [← BitVec.toNat_inj, hph]
    change _ = 3 ↔ _
    omega
  have h2 : (t.dev (direct p)).counter = 2#4 ↔ n = 5 ∨ n = 6 := by
    rw [← BitVec.toNat_inj, hph]
    change _ = 2 ↔ _
    omega
  refine ⟨t, r, he, hres, hb, hph, fun b h8 => ?_⟩
  rw [hbits b h8, hdata, getLsbD_pad6Data _ h8, hth, hb]
  by_cases h6 : b = 6
  · simp [h6]
  · by_cases hodd : n % 2 = 1
    · have h7 : n = 7 ∨ n = 8 ↔ n = 7 := by omega
      simp [h3, h6, hodd, h7]
    · have h7 : ¬ n = 7 := by omega
      have h5 : ¬ n = 5 := by omega
      simp [h3, h2, h6, hodd, h7, h5, show ¬ n = 0 by omega]

end Sys2Proof.Machine
end

section
/-! PROOF. The environment calls on the devices (45_host_ops.md R310 to R316). -/

namespace Sys2Proof.Machine

theorem unpressed_eq (ty : DevType) : unpressed ty = if ty = .mouse then 0x000#12 else 0xFFF#12 := by
  cases ty <;> rfl

theorem reject_eq (s : State) : s.reject = .next { s with result := .reject } := rfl

/-! ## SETTYPE and SETKEYMAP -/

theorem exec_settype {v : BitVec 4} {w : Fin 15} {code : Byte} {ty : DevType} (hv : v.toNat = w.val)
    (hc : typeOfCode code = some ty) (hok : ty = .tap → w.val ≤ 2) (s : State) :
    exec (.settype v code) s = .next { s with
      devices := s.devices.set w ((s.dev w).recreate ty)
      keyMap := s.keyMap.set w KeyRow.empty
      result := .ok } := by
  change execSettype v code s = _
  simp only [execSettype, virtualPort_eq_some hv, hc, (typeAllowed_iff w ty).mpr hok, if_true, finish_eq]
  rfl

/-- Settles O48: the record is made anew as the type the code names. -/
theorem settypeMakesTheDeviceAnew : Obligations.SettypeMakesTheDeviceAnew := by
  intro s v w code ty hv hc hok
  rw [exec_settype hv (typeOfCode_of_mem hc) hok, Device.recreate, Device.powerOn, unpressed_eq]
  rfl

theorem exec_settype_reject {v : BitVec 4} {code : Byte}
    (h : 5 < code.toNat ∨ 14 < v.toNat ∨ (code = 5#8 ∧ 2 < v.toNat)) (s : State) :
    exec (.settype v code) s = .next { s with result := .reject } := by
  change execSettype v code s = _
  rw [← reject_eq]
  rcases h with hc | hv | ⟨rfl, hv⟩
  · rw [execSettype, typeOfCode_eq_none hc]
    cases virtualPort v <;> rfl
  · rw [execSettype, virtualPort_eq_none hv]
  · unfold execSettype
    split
    · next w ty hw ht =>
      cases ht
      refine if_neg fun ha => ?_
      have hle := (typeAllowed_iff w .tap).mp ha rfl
      have hval : w.val = v.toNat := by
        unfold virtualPort at hw
        split at hw <;> cases hw
        rfl
      omega
    · rfl

theorem exec_setkeymap {v : BitVec 4} {w : Fin 15} (hv : v.toNat = w.val) (keys : List (BitVec 16)) (s : State) :
    exec (.setkeymap v keys) s = .next { s with
      devices := s.devices.set w { s.dev w with buttons := unpressed (s.dev w).type }
      keyMap := s.keyMap.set w (keyRowOf keys (nbtn (s.dev w).type))
      result := .ok } := by
  change execSetkeymap v keys s = _
  simp only [execSetkeymap, virtualPort_eq_some hv, finish_eq]
  rfl

theorem getElem_keyRowOf (keys : List (BitVec 16)) (nb : Nat) (i : Fin 12) : (keyRowOf keys nb)[i] =
    if h : i.val < keys.length then (if i.val < nb then keys[i.val] else 0#16) else 0#16 := by
  rw [keyRowOf, getElem_ofFn_fin]
  by_cases hl : i.val < keys.length
  · rw [dif_pos hl, List.getD_eq_getElem keys 0#16 hl]
    exact if_congr (by rw [Nat.lt_min]; exact and_iff_right hl) rfl rfl
  · rw [dif_neg hl, if_neg fun h => hl (Nat.lt_of_lt_of_le h (Nat.min_le_left ..))]

/-- Settles O50: the row is the array cut at the device's button count. -/
theorem setkeymapTruncatesAndReleases : Obligations.SetkeymapTruncatesAndReleases := by
  intro s v w keys hv
  refine ⟨_, exec_setkeymap hv keys s, rfl, fun u hu => ⟨?_, ?_⟩, ?_, fun i => ?_⟩
  · exact (s.keys_setKeys ..).trans (if_neg hu)
  · exact (s.dev_setDev ..).trans (if_neg hu)
  · exact ((s.dev_setDev ..).trans (if_pos rfl)).trans (by rw [unpressed_eq])
  · have hrow : (s.setKeys w (keyRowOf keys (nbtn (s.dev w).type))).keys w = keyRowOf keys (nbtn (s.dev w).type) :=
      (s.keys_setKeys ..).trans (if_pos rfl)
    refine (congrArg (fun k : KeyRow => k[i]) hrow).trans ((getElem_keyRowOf ..).trans ?_)
    cases (s.dev w).type <;> rfl

/-! ## Key events -/

theorem exec_key (code : BitVec 16) (down : Bool) (s : State) :
    exec (if down then .keydown code else .keyup code) s =
      .next { keyEvent code down s with result := .none } := by
  cases down <;> rfl

theorem keyEvent_frame (code : BitVec 16) (down : Bool) (s : State) :
    keyEvent code down s = { s with devices := (keyEvent code down s).devices } := by
  unfold keyEvent
  split <;> rfl

theorem keys_keyEvent (code : BitVec 16) (down : Bool) (s : State) (v : Fin 15) :
    (keyEvent code down s).keys v = s.keys v := by
  rw [keyEvent_frame]
  rfl

theorem dev_keyEvent (code : BitVec 16) (down : Bool) (s : State) (v : Fin 15) : (keyEvent code down s).dev v =
    if code = 0#16 then s.dev v else (s.dev v).key (s.keys v) code down := by
  unfold keyEvent
  split
  · rfl
  · exact getElem_ofFn_fin _ v

/-- A key event changes nothing of a record but its buttons. -/
theorem dev_keyEvent_frame (code : BitVec 16) (down : Bool) (s : State) (v : Fin 15) :
    (keyEvent code down s).dev v = { s.dev v with buttons := ((keyEvent code down s).dev v).buttons } := by
  rw [dev_keyEvent]
  split <;> rfl

/-- One button of one record after a key event (R314, R315). -/
theorem getLsbD_keyEvent (code : BitVec 16) (down : Bool) (s : State) (v : Fin 15) (i : Fin 12) :
    ((keyEvent code down s).dev v).buttons.getLsbD i.val =
      if code ≠ 0#16 ∧ i.val < nbtn (s.dev v).type ∧ (s.keys v)[i] = code
      then decide (down = true ↔ (s.dev v).type = .mouse) else (s.dev v).buttons.getLsbD i.val := by
  rw [dev_keyEvent]
  by_cases h0 : code = 0#16
  · rw [if_pos h0, if_neg fun h => h.1 h0]
  · rw [if_neg h0, getLsbD_key]
    exact if_congr (and_iff_right h0).symm rfl rfl

/-- Settles O51: each record's buttons take the event through its own key row. -/
theorem keyEventsDriveTheMappedButtons : Obligations.KeyEventsDriveTheMappedButtons := by
  intro s code down
  refine ⟨_, exec_key code down s, ?_, fun v => ⟨dev_keyEvent_frame code down s v, getLsbD_keyEvent code down s v⟩⟩
  exact congrArg (fun t : State => { t with result := .none }) (keyEvent_frame code down s)

/-- Button `i` of the record on port `w` is pressed, in its device's own polarity (R40). -/
def Pressed (s : State) (w : Fin 15) (i : Fin 12) : Prop :=
  (s.dev w).buttons.getLsbD i.val = decide ((s.dev w).type = .mouse)

/-- A key press adds the buttons it drives to those pressed. -/
theorem pressed_keydown (code : BitVec 16) (s : State) (w : Fin 15) (i : Fin 12) :
    Pressed (keyEvent code true s) w i ↔
      Pressed s w i ∨ (i.val < nbtn (s.dev w).type ∧ code ≠ 0#16 ∧ (s.keys w)[i] = code) := by
  have hty : ((keyEvent code true s).dev w).type = (s.dev w).type := by rw [dev_keyEvent_frame]
  rw [Pressed, Pressed, hty, getLsbD_keyEvent]
  split
  · next h => exact iff_of_true (decide_eq_decide.mpr (by simp)) (.inr ⟨h.2.1, h.1, h.2.2⟩)
  · next h => exact (or_iff_left fun hd => h ⟨hd.2.1, hd.1, hd.2.2⟩).symm

/-- After a list of key presses the buttons pressed are those pressed before and those the keys drive. -/
theorem performAll_keydowns (held : List (BitVec 16)) (s : State) (w : Fin 15) : ∃ t,
    performAll (held.map .keydown) s = .next t ∧ (t.dev w).type = (s.dev w).type ∧
    (t.dev w).lastLines = (s.dev w).lastLines ∧
    ∀ i : Fin 12, Pressed t w i ↔
      Pressed s w i ∨ (i.val < nbtn (s.dev w).type ∧ (s.keys w)[i] ≠ 0#16 ∧ (s.keys w)[i] ∈ held) := by
  induction held generalizing s with
  | nil => exact ⟨s, rfl, rfl, rfl, fun i => by simp⟩
  | cons code held ih =>
    obtain ⟨t, he, hty, hl, hb⟩ := ih { keyEvent code true s with result := .none }
    have hd : ({ keyEvent code true s with result := .none } : State).dev w = _ := dev_keyEvent_frame code true s w
    have hk : ({ keyEvent code true s with result := .none } : State).keys w = s.keys w :=
      keys_keyEvent code true s w
    have hx : exec (.keydown code) s = .next { keyEvent code true s with result := .none } := exec_key code true s
    refine ⟨t, (performAll_cons hx _).trans he, hty.trans (by rw [hd]), hl.trans (by rw [hd]), fun i => ?_⟩
    have hp : Pressed { keyEvent code true s with result := .none } w i ↔ _ := pressed_keydown code s w i
    rw [hb i, hp, hk, hd, List.mem_cons, or_assoc]
    refine or_congr_right ⟨?_, ?_⟩
    · rintro (⟨h1, h2, h3⟩ | ⟨h1, h2, h3⟩)
      · exact ⟨h1, h3 ▸ h2, .inl h3⟩
      · exact ⟨h1, h2, .inr h3⟩
    · rintro ⟨h1, h2, h3 | h3⟩
      · exact .inl ⟨h1, h3 ▸ h2, h3⟩
      · exact .inr ⟨h1, h2, h3⟩

/-- A fresh record has no button pressed. -/
theorem getLsbD_unpressed_ne (ty : DevType) (i : Fin 12) :
    (unpressed ty).getLsbD i.val ≠ decide (ty = .mouse) := by
  rw [getLsbD_unpressed ty i.isLt]
  cases ty <;> decide

/-- The key a button below the count has in a row made from an array. -/
theorem keyRowOf_mem_iff (keys held : List (BitVec 16)) (nb : Nat) (i : Fin 12) :
    (i.val < nb ∧ (keyRowOf keys nb)[i] ≠ 0#16 ∧ (keyRowOf keys nb)[i] ∈ held) ↔
      ∃ k, keys[i.val]? = some k ∧ i.val < nb ∧ k ≠ 0#16 ∧ k ∈ held := by
  rw [getElem_keyRowOf]
  by_cases hl : i.val < keys.length
  · rw [dif_pos hl, List.getElem?_eq_getElem hl]
    constructor
    · rintro ⟨h1, h2, h3⟩
      rw [if_pos h1] at h2 h3
      exact ⟨_, rfl, h1, h2, h3⟩
    · rintro ⟨k, hk, h1, h2, h3⟩
      cases hk
      rw [if_pos h1]
      exact ⟨h1, h2, h3⟩
  · rw [dif_neg hl, List.getElem?_eq_none (Nat.not_lt.mp hl)]
    exact iff_of_false (fun h => h.2.1 rfl) (fun ⟨_, h, _⟩ => nomatch h)

/-- Settles O52: the two calls leave no button pressed, and the key presses add the keys' buttons. -/
theorem pressedButtonsAreTheKeysHeld : Obligations.PressedButtonsAreTheKeysHeld := by
  intro s v w code ty keys held hv hc hok
  have h1 := exec_settype hv (typeOfCode_of_mem hc) hok s
  generalize ht : ({ s with
    devices := s.devices.set w ((s.dev w).recreate ty)
    keyMap := s.keyMap.set w KeyRow.empty
    result := .ok } : State) = t at h1
  have hdt : t.dev w = (s.dev w).recreate ty := by
    rw [← ht]
    exact (s.dev_setDev ..).trans (if_pos rfl)
  have h2 := exec_setkeymap hv keys t
  generalize hu : ({ t with
    devices := t.devices.set w { t.dev w with buttons := unpressed (t.dev w).type }
    keyMap := t.keyMap.set w (keyRowOf keys (nbtn (t.dev w).type))
    result := .ok } : State) = u at h2
  have hdu : u.dev w = { (s.dev w).recreate ty with buttons := unpressed ty } := by
    rw [← hu]
    exact ((t.dev_setDev ..).trans (if_pos rfl)).trans (by rw [hdt]; rfl)
  have hku : u.keys w = keyRowOf keys (nbtn ty) := by
    rw [← hu]
    exact ((t.keys_setKeys ..).trans (if_pos rfl)).trans (by rw [hdt]; rfl)
  obtain ⟨x, he, hty, hl, hb⟩ := performAll_keydowns held u w
  rw [hdu] at hty hl
  refine ⟨x, ?_, hty, hl, fun i hi => ?_⟩
  · rw [performAll_cons h1, performAll_cons h2, he]
  · have hp := hb ⟨i, hi⟩
    have hn : ¬ Pressed u w ⟨i, hi⟩ := by
      rw [Pressed, hdu]
      exact getLsbD_unpressed_ne ty ⟨i, hi⟩
    rw [or_iff_right hn, hdu, hku] at hp
    rw [Pressed, hty] at hp
    exact hp.trans (keyRowOf_mem_iff keys held (nbtn ty) ⟨i, hi⟩)

/-! ## MOUSEMOVE -/

theorem exec_mousemove {v : BitVec 4} {w : Fin 15} (hv : v.toNat = w.val) (dx dy : BitVec 16) (s : State) :
    exec (.mousemove v dx dy) s =
      if (s.dev w).type = .mouse then .next { s with
        devices := s.devices.set w
          { s.dev w with relX := addSat (s.dev w).relX dx, relY := addSat (s.dev w).relY dy }
        result := .ok }
      else .next { s with result := .reject } := by
  change execMousemove v dx dy s = _
  simp only [execMousemove, virtualPort_eq_some hv, finish_eq, reject_eq]
  rfl

/-- The saturating sum read as a signed value (R316). -/
theorem toInt_addSat (a b : BitVec 16) : (addSat a b).toInt = max (-32768) (min 32767 (a.toInt + b.toInt)) := by
  rw [addSat, sat16, BitVec.toInt_ofInt]
  exact Int.bmod_eq_of_le (by omega) (by omega)

/-- Settles O53: both accumulators take the saturating sum. -/
theorem mousemoveAccumulatesSaturating : Obligations.MousemoveAccumulatesSaturating := by
  intro s v w dx dy hv hm
  have hw : (s.setDev w { s.dev w with relX := addSat (s.dev w).relX dx, relY := addSat (s.dev w).relY dy }).dev w =
      { s.dev w with relX := addSat (s.dev w).relX dx, relY := addSat (s.dev w).relY dy } :=
    (s.dev_setDev ..).trans (if_pos rfl)
  refine ⟨_, (exec_mousemove hv dx dy s).trans (if_pos hm), rfl, fun u hu => ?_, ?_, ?_, ?_⟩
  · exact (s.dev_setDev ..).trans (if_neg hu)
  · exact hw.trans (congrArg (fun d : Device => { s.dev w with relX := d.relX, relY := d.relY }) hw.symm)
  · exact (congrArg (fun d : Device => d.relX.toInt) hw).trans (toInt_addSat ..)
  · exact (congrArg (fun d : Device => d.relY.toInt) hw).trans (toInt_addSat ..)

/-! ## Rejected calls -/

/-- Settles O49: each call's own test fails. -/
theorem unsupportedCallsAreRejected : Obligations.UnsupportedCallsAreRejected := by
  refine ⟨rfl, fun s v code keys dx dy sv => ⟨fun h => exec_settype_reject h s, fun hv => ?_, ?_, fun hl => ?_⟩⟩
  · change execSetkeymap v keys s = _
    rw [execSetkeymap, virtualPort_eq_none hv]
    rfl
  · rintro (hv | ⟨w, hv, hm⟩)
    · change execMousemove v dx dy s = _
      rw [execMousemove, virtualPort_eq_none hv]
      rfl
    · exact (exec_mousemove hv.symm dx dy s).trans (if_neg hm)
  · change execSetstate sv s = _
    rw [execSetstate, hl]
    rfl

end Sys2Proof.Machine
end

section
/-! PROOF. The savestate accessors and POWERON (45_host_ops.md R320 to R322, 70_reset_and_hazards.md R360). -/

namespace Sys2Proof.Machine

/-! ## GETSTATE and SETSTATE -/

theorem exec_setstate {sv : Saved} (h : sv.legal = true) (s : State) :
    exec (.setstate sv) s = .next { s.load sv with result := .ok } := if_pos h

/-- A restored state's savestate is the value restored, but for the stores, which are this session's. -/
theorem save_load (s : State) (sv : Saved) : (s.load sv).save = { sv with
    sramLen := s.session.sramLen, sram := (s.load sv).sram, eepLen := s.session.eepLen, eep := (s.load sv).eep } := rfl

/-- Settles O54: SETSTATE loads the value, item by item. -/
theorem savestateAccessorsReadAndWriteEveryItem : Obligations.SavestateAccessorsReadAndWriteEveryItem := by
  refine fun s sv => ⟨⟨s.save, rfl, rfl⟩, fun hl => ⟨_, exec_setstate hl s, ?_, fun i hi => s.load_sramByte sv hi,
    fun i hi => s.load_eepByte sv hi, fun hw hs he => ?_, rfl, rfl, rfl, ?_, rfl⟩⟩
  · exact congrArg (fun cur => Host.Outcome.next { s.load sv with result := .saved cur }) (save_load s sv)
  · obtain ⟨h1, h2, -⟩ := s.load_of_sameLen sv hw hs he
    exact ⟨h1, h2⟩
  · exact if_congr (by simp [Saved.short]) rfl rfl

/-! ## POWERON -/

theorem mapper_eq_none_iff (c : PowerConfig) : PowerConfig.mapper c = none ↔ c.kind = .quirk ∧ c.quirk = none := by
  unfold PowerConfig.mapper
  cases c.kind <;> simp

/-- The variant a session starts with is the one asked for, its quirk parameter the one supplied. -/
theorem mapper_eq_some {c : PowerConfig} {m : Mapper} (h : PowerConfig.mapper c = some m) :
    m.kind = c.kind ∧ ∀ q, m = .quirk q → c.quirk = some q := by
  unfold PowerConfig.mapper at h
  split at h
  · next hk => cases h; exact ⟨hk.symm, fun _ h => nomatch h⟩
  · next hk => cases h; exact ⟨hk.symm, fun _ h => nomatch h⟩
  · next hk => cases h; exact ⟨hk.symm, fun _ h => nomatch h⟩
  · next hk =>
    obtain ⟨q, hq, rfl⟩ := Option.map_eq_some_iff.mp h
    exact ⟨hk.symm, fun _ h => by cases h; exact hq⟩

/-- The state POWERON leaves (R360). -/
def poweredOn (c : PowerConfig) (m : Mapper) (s : State) : State where
  session := c.session
  mapper := m
  pageMap := pageMapPowerOn
  ram := []
  ramDraw := s.draws
  sram := c.sram
  eep := c.eep
  arb := Arbiter.powerOn
  ports := Vector.replicate 3 Port.powerOn
  devices := Vector.ofFn fun v => Device.powerOn c.types[v]
  keyMap := Vector.replicate 15 KeyRow.empty
  pending := s.pending
  result := .none
  events := s.events
  draws := s.draws + 1

theorem exec_poweron {c : PowerConfig} {m : Mapper} (hm : PowerConfig.mapper c = some m)
    (ht : ∀ v : Fin 15, c.types[v] = .tap → v.val ≤ 2) (s : State) :
    exec (.poweron c) s = .next (poweredOn c m s) := by
  change execPoweron c s = _
  rw [execPoweron, hm]
  exact if_pos fun v => (typeAllowed_iff v _).mpr (ht v)

theorem exec_poweron_illegal {c : PowerConfig} {m : Mapper} (hm : PowerConfig.mapper c = some m) {v : Fin 15}
    (ht : c.types[v] = .tap) (hv : 2 < v.val) (s : State) : exec (.poweron c) s = .refused .illegalSession := by
  change execPoweron c s = _
  rw [execPoweron, hm]
  exact if_neg fun h => Nat.not_le.mpr hv ((typeAllowed_iff v _).mp (h v) ht)

/-- Settles O56: the mapper's test, the devices' test, and else the power-on state. -/
theorem poweronSetsTheResetValues : Obligations.PoweronSetsTheResetValues := by
  intro s c
  refine ⟨fun h => ?_, fun h ⟨v, ht, hv⟩ => ?_, fun h ht => ?_⟩
  · change execPoweron c s = _
    rw [execPoweron, (mapper_eq_none_iff c).mpr h]
  · obtain ⟨m, hm⟩ := Option.ne_none_iff_exists'.mp fun hn => h ((mapper_eq_none_iff c).mp hn)
    exact exec_poweron_illegal hm ht hv s
  · obtain ⟨m, hm⟩ := Option.ne_none_iff_exists'.mp fun hn => h ((mapper_eq_none_iff c).mp hn)
    obtain ⟨hk, hq⟩ := mapper_eq_some hm
    refine ⟨_, exec_poweron hm ht s, rfl, hk, hq, rfl, rfl, fun _ => rfl, rfl, ?_, rfl, ?_, fun v => ?_, ?_, rfl, rfl⟩
    · exact (by decide : ∀ w : Fin 8, pageMapPowerOn[w].toNat = w.val)
    · exact fun p => Vector.getElem_replicate p.isLt
    · refine (getElem_ofFn_fin (fun v : Fin 15 => Device.powerOn c.types[v]) v).trans ?_
      rw [Device.powerOn, unpressed_eq]
    · intro v i
      have hrow : (Vector.replicate 15 KeyRow.empty)[v] = KeyRow.empty := Vector.getElem_replicate v.isLt
      exact (congrArg (fun k : KeyRow => k[i]) hrow).trans (Vector.getElem_replicate i.isLt)

/-- Settles O57: the default session's taps are none, and its power-on state is the reset state. -/
theorem resetIsPoweronOfTheDefaultSession : Obligations.ResetIsPoweronOfTheDefaultSession := fun s =>
  exec_poweron (m := .banked) rfl (by decide) s

end Sys2Proof.Machine
end
